-- ==== Sys2Proof/Word.lean ====
section
/-! DEFINITION. The word types of the AP8: the 16-bit word of every layout (R176), frame numbers, and the index types of
towers, slots, contactors and load targets. -/
namespace Sys2Proof

/-- A word is 16 bits; bit 15 is the most significant (R176). -/
abbrev Word := BitVec 16

/-- Frame numbers are 32 bits and wrap (R64; scope, section 4). -/
abbrev FrameNum := BitVec 32

/-- The four characters of a label, first character in the high byte (R11, R176). -/
abbrev Label := BitVec 32

/-- Slots 0 to 15 of the Pattern Store (R2). -/
abbrev Slot := Fin 16

/-- Towers 0 to 7. -/
abbrev TowerIx := Fin 8

/-- Contactor numbers 0 to 23 (R39). -/
abbrev ContactorIx := Fin 24

/-- Schedule entry numbers 0 to 47 (R126). -/
abbrev EntryIx := Fin 48

/-- Load targets 0 to 17: the slots, the Contactor Table (16) and the Schedule Table (17) (R136). -/
abbrev Target := Fin 18

/-- A set of towers, tower t in bit t, as the tower set field of a pattern record has it (R11). -/
abbrev TowerSet := BitVec 8

/-- A set of contactors, contactor c in bit c. -/
abbrev ContactorSet := BitVec 24

end Sys2Proof
end

