-- ==== Sys2Proof/Syntax.lean ====
section
/-! DEFINITION. The commands of the block: one constructor of `Instr` for each of the 49 rows of spec/opcode_table.json, and
the operand types they carry. -/
namespace Sys2Proof

/-- A frame as received on a port: the words between its start mark and its end (kind word or first word first, check word
last), and whether it was ABORTED or cut short (R152, R105). -/
structure Rx where
  words   : List Word
  aborted : Bool
deriving DecidableEq, Repr

/-- The two auxiliary inputs of a contactor: AXOn shows OPEN, AXCn shows CLOSED (R41). -/
inductive AuxInput where
  | showsOpen
  | showsClosed
deriving DecidableEq, Repr

/-- The commands of the table, in its order. The twenty commands of CMU carry no operand here: each is the step in which CMU
executes the frame at the head of its Command Queue, and its parameters stand in that frame (R165, R166; log 4). -/
inductive Instr where
  /-- POWER_ON_RESET: RESET is released with power applied; the operand is the level of ADR0 to ADR3. -/
  | powerOnReset (straps : BitVec 4)
  /-- RESET_ASSERTED -/
  | resetAsserted
  /-- REFCLK_STOPPED -/
  | refclkStopped
  /-- REFCLK_RETURNED -/
  | refclkReturned
  /-- SAMPLE_FRAME: what RING IN carried in the sample frame's place. -/
  | sampleFrame (rx : Rx)
  /-- MISSED_FRAME -/
  | missedFrame
  /-- LOCAL_PACE_FRAME -/
  | localPaceFrame
  /-- LOSS_TIMER_EXPIRY -/
  | lossTimerExpiry
  /-- MGMT_FRAME -/
  | mgmtFrame (rx : Rx)
  /-- TIME_FRAME -/
  | timeFrame (rx : Rx)
  /-- RELEASE_FRAME -/
  | releaseFrame (rx : Rx)
  /-- EMPTY_FRAME -/
  | emptyFrame (rx : Rx)
  /-- STATUS -/
  | status
  /-- SWITCH -/
  | switch
  /-- WITHDRAW -/
  | withdraw
  /-- GO -/
  | go
  /-- CONTINUE -/
  | continueTx
  /-- RETREAT -/
  | retreat
  /-- MUTE -/
  | mute
  /-- MOVE -/
  | move
  /-- ACK_FAULT -/
  | ackFault
  /-- TRIM_CLEAR -/
  | trimClear
  /-- SCHEDULE_HOLD -/
  | scheduleHold
  /-- CLAIM -/
  | claim
  /-- LOAD -/
  | load
  /-- COMMIT -/
  | commit
  /-- FINISH -/
  | finish
  /-- UNCLAIM -/
  | unclaim
  /-- READ -/
  | read
  /-- REPORTING -/
  | reporting
  /-- CLEAR_OVERFLOW -/
  | clearOverflow
  /-- RESTART -/
  | restart
  /-- INTERLOCK_OPENING -/
  | interlockOpening
  /-- INTERLOCK_LINE_CLOSED -/
  | interlockLineClosed
  /-- INTERLOCK_QUALIFIED -/
  | interlockQualified
  /-- RDY_LINE_CHANGE: tower, and the level the line now shows (true READY). -/
  | rdyLineChange (t : TowerIx) (level : Bool)
  /-- CABINET_DEBOUNCE_EXPIRY -/
  | cabinetDebounceExpiry (t : TowerIx)
  /-- AUX_INPUT_CHANGE: contactor, input, and whether it is now asserted. -/
  | auxInputChange (c : ContactorIx) (input : AuxInput) (asserted : Bool)
  /-- AUX_DEBOUNCE_EXPIRY -/
  | auxDebounceExpiry (c : ContactorIx) (input : AuxInput)
  /-- TRAVEL_LIMIT_EXPIRY -/
  | travelLimitExpiry (c : ContactorIx)
  /-- SETTLE_TIMER_EXPIRY -/
  | settleTimerExpiry
  /-- GATE_TIMER_EXPIRY -/
  | gateTimerExpiry
  /-- CHECK_COMPLETION -/
  | checkCompletion (target : Target)
  /-- CLAIM_LAPSE -/
  | claimLapse (target : Target)
  /-- MONITOR_RECORD: what MON IN carried. -/
  | monitorRecord (rx : Rx)
  /-- ABSENCE_TIMER_EXPIRY -/
  | absenceTimerExpiry
  /-- HOLD_OFF_EXPIRY -/
  | holdOffExpiry
  /-- STALE_TIMER_EXPIRY -/
  | staleTimerExpiry
  /-- UNKNOWN_COMMAND -/
  | unknownCommand
deriving DecidableEq, Repr

end Sys2Proof
end

