-- ==== Sys2Proof/Decode.lean ====
section
/-! DEFINITION. Decoding of table words. The table gives bits to none of its rows (every row's fields are empty), so no word
spells a command. What MGMT frames spell is decoded in Machine/Operands.lean. -/
namespace Sys2Proof

/-- The command a table word spells: none, since no row of spec/opcode_table.json gives bits. -/
def decodeTableWord (_nbits _w : Nat) : Option Instr := none

end Sys2Proof
end

