-- ==== Sys2Proof/Config.lean ====
section
/-! DEFINITION. What the part fixes (its version, its standard lengths and limits) and the free values of the model. -/
namespace Sys2Proof.Config

/-- The part version is 1 for the parts the document describes (R170). -/
def partVersion : Nat := 1

/-- The standard mute ramp is 256 frames (R65, R86, R94). -/
def muteRamp : Nat := 256

/-- FREE VALUE. The word CHECK_DONE carries for a content size that does not fit 16 bits: R147 and R176 state no word for
it. Log 13. -/
opaque oversizeWord : Nat → Word

/-- FREE VALUE. Which of the three words of schedule entry j item 8 of R127 names: the item has no single failing field.
Log 13. -/
opaque conflictWord : Nat → Fin 3

/-! Limits of the interval-timer quantities, in ms. -/

/-- Interlock qualification (R34). -/
def qualificationMs : Nat := 100
/-- Cabinet READY debounce (R36). -/
def cabinetDebounceMs : Nat := 10
/-- Auxiliary contact debounce (R41). -/
def auxDebounceMs : Nat := 20
/-- Claim lapse (R140). -/
def lapseMs : Nat := 60000
/-- A check ends within 40 ms of its start (R5, R146); the model's idle step ends it at 40 ms. DESIGN CHOICE, log 19. -/
def checkMs : Nat := 40
/-- Absence of the monitor (R106). -/
def absenceMs : Nat := 1000
/-- Stale timer of the station clock (R123). -/
def staleMs : Nat := 10000

/-! Paces, in quarters of a millisecond (DESIGN CHOICE of the unit, log 1). -/

/-- The loss timer's 3 ms (R155). -/
def lossQuarters : Nat := 12
/-- The 750 µs after which a frame is missed (R30). -/
def missedQuarters : Nat := 3
/-- The 500 µs of the local pace (R30, R31). -/
def paceQuarters : Nat := 2

end Sys2Proof.Config
end

