-- ==== Sys2Proof/Machine/State.lean ====
section
/-! DEFINITION. The state of one AP8, block by block, as plain data, and its value right after a power-on reset. -/
namespace Sys2Proof.Machine

/-! ## Reasons a step can stop -/

/-- The spec names no event that stops the unit, so no meaning raises a fault: the type has no constructor. Safe and unsafe
do not arise. -/
inductive Fault where
deriving DecidableEq, Repr

/-- Refusals. Only an arm of `exec` that has no meaning yet refuses; no arm does. -/
inductive Refusal where
  /-- Raised by an arm of `exec` whose command has no meaning yet. Safe: the run stops. -/
  | notModelled (mnemonic : String)
deriving DecidableEq, Repr

/-! ## Ring Interface (09_the_array_ring.md) -/

/-- Receive state. LOST has no duration and is not held (R154). -/
inductive RecvState where
  | hunt | sync | good
deriving DecidableEq, Repr

/-- What RIF owns. -/
structure Rif where
  /-- Receive state (R154). -/
  recv          : RecvState
  /-- Run of consecutive valid sample frames, 0 to 16 (R154). -/
  run           : Nat
  /-- Number of the last valid sample frame (R154, R155). -/
  last          : Option FrameNum
  /-- Loss timer in quarters of a millisecond, when it runs (R155). -/
  loss          : Option Nat
  /-- Loss-since-good flag (R155). -/
  lossSinceGood : Bool
  /-- Loss count, 0 to 65535 (R155). -/
  lossCount     : Nat
  /-- Current frame number (R157). -/
  frame         : Option FrameNum
  /-- Join state: true JOINED (R160). -/
  joined        : Bool
  /-- Reporting-enabled flag (R163). -/
  reporting     : Bool
  /-- Held release (R162). -/
  held          : Bool
  /-- Unit address, 1 to 16 (R159). -/
  addr          : BitVec 5
  /-- A sample frame has arrived in this ring cycle and no complete message frame after it yet (R157). -/
  slotOpen      : Bool
  /-- BYP is energised, so the bypass relay is open (R158, R177). -/
  byp           : Bool
  /-- What RING OUT sends in place of, or for, the last frame received (R158, R161, R162). -/
  out           : Option Rx
deriving DecidableEq, Repr

/-! ## Command Unit (10_commands_and_reports.md) -/

/-- A MGMT frame as the Command Queue keeps it (R165). -/
structure Mgmt where
  dest   : BitVec 5
  source : BitVec 3
  tag    : BitVec 8
  code   : BitVec 8
  params : List Word
deriving DecidableEq, Repr

/-- Outcome codes of return records, in the order of R169. -/
inductive OutcomeCode where
  | done | armed | started | empty | alreadyActive
  | busy | late | far | notValid | notPermitted | notReady | wrongState | interlock | inUse | heldBy | notClaimed
  | offset | range | overlap | bufferBusy | referenced | badParam | badAddress | unknown
  | overrun
deriving DecidableEq, Repr

/-- Kinds of notice, in the order of the catalogue of R171. -/
inductive NoticeKind where
  | unitStarted | clipping | interlockOpened | interlockClosed | cabinetFault | cabinetReady
  | contactorConfirmed | contactorStuck | contactorDisagree | contactorAgree
  | armedWithdrawn | txStarted | txReadyUp | txCompleted | txHalted | txAtRest | txContinued | muted
  | monitorPresent | monitorAbsent | toleranceFault | toleranceClear | trimLimit
  | timeInvalid | clockStale | clockSet | clockStepped | scheduleDue
  | claimLapsed | checkDone | ringLost | ringRegained | ringJoined
deriving DecidableEq, Repr

/-- A record of the Report Queue: a return record (R168) or a notice (R171). -/
inductive Record where
  | ret (tag : BitVec 8) (source : BitVec 3) (code : BitVec 8) (outcome : OutcomeCode) (data : List Word)
  | notice (kind : NoticeKind) (frame : Option FrameNum) (subject : Option (BitVec 8)) (label : Option Label)
      (details : List Word)
deriving DecidableEq, Repr

/-- What CMU owns. -/
structure Cmu where
  /-- Command Queue, at most 4 frames (R165). -/
  queue    : List Mgmt
  /-- Report Queue, at most 32 records (R172). -/
  reports  : List Record
  /-- Report-overflow flag (R173). -/
  overflow : Bool
deriving DecidableEq, Repr

/-! ## Pattern Store (01_patterns_and_the_pattern_store.md) -/

/-- Word memory: addresses strictly rising, no entry equal to the zero an unlisted address reads as. -/
abbrev Mem := List (Nat × Word)

/-- A slot of the directory; each state holds the fields R2 gives it and no others. -/
inductive SlotEntry where
  | empty
  | loading (base len : Nat) (holder : BitVec 3)
  | checking (base len : Nat) (holder : BitVec 3)
  | valid (base len : Nat) (check : Word) (label : Label)
deriving DecidableEq, Repr

/-- Trim amplitude in 1/32768 and trim phase in hundredths of a degree (R19). -/
structure Trim where
  amp   : Int
  phase : Int
deriving DecidableEq, Repr

/-- What PST owns. -/
structure Pst where
  dir   : Vector SlotEntry 16
  store : Mem
  trims : Vector (Vector Trim 8) 16
deriving DecidableEq, Repr

/-! ## Load Unit (08_table_loading.md) -/

/-- Load state of a claimed target, with the timer that runs in it (R137). -/
inductive LoadPhase where
  /-- LOADING, with the lapse timer in ms. -/
  | loading (lapse : Nat)
  /-- CHECKING, with the expected check value and the ms since the check started. -/
  | checking (expected : Word) (elapsed : Nat)
deriving DecidableEq, Repr

/-- A claimed target's record (R137). -/
structure Claim where
  phase     : LoadPhase
  holder    : BitVec 3
  length    : Nat
  segment   : Nat
  running   : Nat
  committed : Nat
deriving DecidableEq, Repr

/-- The Load Buffer while it holds words (R141). -/
structure LoadBuffer where
  owner : Target
  start : Nat
  words : List Word
deriving DecidableEq, Repr

/-- What LDU owns. -/
structure Ldu where
  claims    : Vector (Option Claim) 18
  buf       : Option LoadBuffer
  staging16 : Mem
  staging17 : Mem
deriving DecidableEq, Repr

/-! ## Transition Engine (04_pattern_transitions.md, 05_halts_muting_and_recovery.md) -/

/-- Mode of a request (R58). -/
inductive ReqMode where
  | default | fullMute | blend
deriving DecidableEq, Repr

/-- Resolved mode of a transition (R65). -/
inductive Mode where
  | fullMute | blend
deriving DecidableEq, Repr

/-- Causes, in the order of R80. -/
inductive Cause where
  | command | schedule | fallback | resume | retreat
deriving DecidableEq, Repr

/-- The Armed Request (R58). `joint` holds the gate timeout when the transition is joint. -/
structure Armed where
  target : Slot
  mode   : ReqMode
  frame  : FrameNum
  joint  : Option Nat
  down   : Option Nat
  up     : Option Nat
  cause  : Cause
deriving DecidableEq, Repr

/-- The transition context (R65), with the awaited set of R70 and whether a contactor moved (R71). -/
structure TxContext where
  cause     : Cause
  source    : Option Slot
  target    : Slot
  mode      : Mode
  joint     : Option Nat
  downLen   : Nat
  upLen     : Nat
  moving    : ContactorSet
  unsettled : ContactorSet
  switched  : TowerSet
  blend     : TowerSet
  awaited   : ContactorSet
  moved     : Bool
deriving DecidableEq, Repr

/-- The two sub-states of READY_UP (R76). -/
inductive Gate where
  /-- Awaiting GO, with the gate timer in ms. -/
  | awaiting (elapsed : Nat)
  /-- GO taken, with the GO activation frame. -/
  | taken (frame : FrameNum)
deriving DecidableEq, Repr

/-- Halt reasons, in the order of R83. -/
inductive HaltReason where
  | stuck | drift | cabinet | gate | ring | interlock
deriving DecidableEq, Repr

/-- Halted steps, in the order of R84. -/
inductive HaltedStep where
  | rampDown | switching | settle | readyUp | rampUp | active
deriving DecidableEq, Repr

/-- Halt subject (R83). -/
inductive HaltSubject where
  | none
  | contactor (c : ContactorIx)
  | tower (t : TowerIx)
deriving DecidableEq, Repr

/-- The halt context (R84). `restNoticed` holds whether TX_AT_REST was raised since the entry to HALTED (R88). -/
structure HaltContext where
  reason      : HaltReason
  step        : HaltedStep
  subject     : HaltSubject
  cause       : Cause
  source      : Option Slot
  target      : Slot
  mode        : Mode
  joint       : Option Nat
  upLen       : Nat
  seq         : BitVec 16
  restNoticed : Bool
deriving DecidableEq, Repr

/-- The array state (R56); each state carries the context that stands in it and in no other. -/
inductive ArrayState where
  | unset
  | active (p : Slot)
  | rampDown (c : TxContext)
  | switching (c : TxContext)
  /-- SETTLE, with the settle timer in ms (R72). -/
  | settle (c : TxContext) (elapsed : Nat)
  | readyUp (c : TxContext) (g : Gate)
  /-- RAMP_UP, with the towers whose ramp to the target has ended (R74). -/
  | rampUp (c : TxContext) (ended : TowerSet)
  | halted (h : HaltContext)
  | muting
  /-- MUTED, with the resume pattern (R101). -/
  | muted (resume : Option Slot)
deriving DecidableEq, Repr

/-- Outcome of a history record (R80; codes of R176's history layout). -/
inductive HistOutcome where
  | opened | completed | muted | abandoned
deriving DecidableEq, Repr

/-- A record of the Transition History (R80). -/
structure HistRecord where
  seq      : BitVec 16
  cause    : Cause
  source   : Option Slot
  target   : Slot
  label    : Label
  mode     : Mode
  joint    : Bool
  start    : FrameNum
  endFrame : Option FrameNum
  outcome  : HistOutcome
  halts    : Nat
deriving DecidableEq, Repr

/-- What TXE owns. The in-use set (R79) is a function of `array` and `armed`. -/
structure Txe where
  array   : ArrayState
  armed   : Option Armed
  /-- Transition History, newest first, at most 8 (R80). -/
  history : List HistRecord
  /-- Sequence counter (R81). -/
  seq     : BitVec 16
  /-- Number of the last frame event taken (R56, R64). -/
  frame   : Option FrameNum
deriving DecidableEq, Repr

/-! ## Drive Synthesizer (02_drive_synthesis_and_tower_ports.md) -/

/-- End of a ramp (R23). -/
inductive RampEnd where
  | zero
  | pattern (slot : Slot)
deriving DecidableEq, Repr

/-- Phase manner of a ramp (R25). -/
inductive PhaseManner where
  | hold | jump | arc
deriving DecidableEq, Repr

/-- A ramp in progress (R25). -/
structure Ramp where
  startAmp   : Nat
  startPhase : Nat
  target     : RampEnd
  endAmp     : Nat
  endPhase   : Nat
  length     : Nat
  step       : Nat
  manner     : PhaseManner
deriving DecidableEq, Repr

/-- Tower orders (R23). -/
inductive TowerOrder where
  | rest
  | follow (slot : Slot)
  | ramp (r : Ramp)
deriving DecidableEq, Repr

/-- Drive state of a drive frame (R22). -/
inductive DriveState where
  | idle | ramping | driven
deriving DecidableEq, Repr

/-- A drive frame (R22). -/
structure DriveFrame where
  number    : FrameNum
  reference : Word
  phase     : Nat
  samples   : List Word
  state     : DriveState
  saturated : Bool
deriving DecidableEq, Repr

/-- What DSY holds per tower (section 2.1). -/
structure Tower where
  /-- Applied amplitude, 0 to 65536. -/
  amp         : Nat
  /-- Applied phase, 0 to 35999. -/
  phase       : Nat
  order       : TowerOrder
  /-- Cabinet READY status (R36). -/
  ready       : Bool
  /-- READY debounce in ms, when it runs (R36). -/
  debounce    : Option Nat
  /-- The RDY line shows READY (input). -/
  rdyLine     : Bool
  clipNoticed : Bool
  /-- The last drive frame of the tower port; none while the port has sent nothing (R22, R177). -/
  port        : Option DriveFrame
deriving DecidableEq, Repr

/-- What DSY owns. -/
structure Dsy where
  towers        : Vector Tower 8
  /-- Held envelope value (R30). -/
  heldEnvelope  : Word
  /-- Held carrier phase reference (R30). -/
  heldReference : Word
  /-- Last-written frame number (R30, R37). -/
  lastNumber    : Option FrameNum
  /-- DSY is at the local pace (R31, R32). -/
  localPace     : Bool
  /-- Quarters of a millisecond to the next missed or local frame (R30, R31). -/
  paceLeft      : Nat
  /-- Qualified interlock state: true CLOSED (R34). -/
  ilkClosed     : Bool
  /-- Interlock qualification in ms, when it runs (R34). -/
  ilkTimer      : Option Nat
  /-- The ILK line shows closed (input). -/
  ilkLine       : Bool
deriving DecidableEq, Repr

/-! ## Contactor Unit (03_contactors.md) -/

/-- Commanded positions (R42). -/
inductive Position where
  | opened | closed
deriving DecidableEq, Repr

/-- Association of a contactor (R39). -/
inductive Assoc where
  | tower (t : TowerIx)
  | common
deriving DecidableEq, Repr

/-- Contactor states (R42); the travel timer, in ms, is present in TO_OPEN and TO_CLOSED only. -/
inductive ContactorState where
  | opened | closed
  | toOpen (travel : Nat)
  | toClosed (travel : Nat)
  | stuck | disagree
deriving DecidableEq, Repr

/-- Readings of the two auxiliary contacts (R41). -/
inductive Reading where
  | showsOpen | showsClosed | neither | both
deriving DecidableEq, Repr

/-- A defined contactor: its table entry (R39) and its run state (R42). -/
structure Contactor where
  assoc     : Assoc
  limit     : Nat
  commanded : Position
  state     : ContactorState
deriving DecidableEq, Repr

/-- What CTU holds for one contactor number, defined or not (R39, R41). -/
structure ContactorUnit where
  /-- AXOn raw input asserted. -/
  openLine    : Bool
  /-- AXCn raw input asserted. -/
  closedLine  : Bool
  /-- AXOn debounced level. -/
  openShown   : Bool
  /-- AXCn debounced level. -/
  closedShown : Bool
  /-- AXOn debounce in ms, when it runs. -/
  openTimer   : Option Nat
  /-- AXCn debounce in ms, when it runs. -/
  closedTimer : Option Nat
  /-- Entry of the live Contactor Table with the run state; none while undefined. -/
  entry       : Option Contactor
deriving DecidableEq, Repr

/-- What CTU owns. -/
structure Ctu where
  units : Vector ContactorUnit 24
  /-- The guard, a slot or NONE (R49). -/
  guard : Option Slot
deriving DecidableEq, Repr

/-! ## Monitor Unit (06_array_monitoring_and_trim.md) -/

/-- Tolerance statuses, in the order of R107. -/
inductive Tolerance where
  | notInPattern | held | inTol | out | fault
deriving DecidableEq, Repr

/-- What MON holds per tower (R107, R119). -/
structure MonTower where
  status       : Tolerance
  count        : Nat
  limitNoticed : Bool
deriving DecidableEq, Repr

/-- What MON owns. -/
structure Mon where
  /-- Monitor state: true PRESENT (R106). -/
  present : Bool
  /-- Absence timer in ms, when it runs (R106). -/
  absence : Option Nat
  /-- Sequence number of the last valid record (R105). -/
  lastSeq : Option (BitVec 8)
  /-- The pattern of ACTIVE as the reports of TXE have set it (R108, R110). -/
  active  : Option Slot
  towers  : Vector MonTower 8
  /-- Hold-off timer in ms, when it runs (R109). -/
  holdOff : Option Nat
  /-- Fallback-spent flag (R115). -/
  spent   : Bool
deriving DecidableEq, Repr

/-! ## Schedule Unit (07_schedule_and_station_time.md) -/

/-- A calendar date (R122). -/
structure Date where
  year  : Nat
  month : Nat
  day   : Nat
deriving DecidableEq, Repr

/-- The station clock (R123). -/
inductive Clock where
  | unset
  | set (date : Date) (second : Nat)
  | stale (date : Date) (second : Nat)
deriving DecidableEq, Repr

/-- An entry of the live Schedule Table with its last-fired date (R126). -/
structure SchedEntry where
  enabled   : Bool
  months    : BitVec 12
  minute    : Nat
  target    : Slot
  mode      : ReqMode
  lastFired : Option Date
deriving DecidableEq, Repr

/-- An entry number with its occurrence date (R131, R133). -/
structure Occurrence where
  entry : EntryIx
  date  : Date
deriving DecidableEq, Repr

/-- What SCU owns. -/
structure Scu where
  clock    : Clock
  /-- Stale timer in ms, when it runs (R123). -/
  stale    : Option Nat
  table    : Vector (Option SchedEntry) 48
  /-- Deferred entry (R131). -/
  deferred : Option Occurrence
  /-- Hold flag (R133). -/
  hold     : Bool
  /-- Held-due entry (R133). -/
  held     : Option Occurrence
deriving DecidableEq, Repr

/-! ## The machine -/

/-- The state of one AP8 and of its input lines, with the queue of commands waiting. -/
structure State where
  /-- Powered and RESET not asserted (R158, R177). -/
  running : Bool
  /-- REFCLK runs (R177, input). -/
  refclk  : Bool
  /-- Quarter of the current millisecond of the interval timer, 0 to 3 (log 1). -/
  quarter : Nat
  rif     : Rif
  cmu     : Cmu
  pst     : Pst
  ldu     : Ldu
  txe     : Txe
  dsy     : Dsy
  ctu     : Ctu
  mon     : Mon
  scu     : Scu
  /-- Commands waiting, first in, first out. -/
  pending : List Instr
deriving DecidableEq, Repr

/-! ## Reset values -/

/-- RIF after power-on reset with the straps at 0 (R164; straps, slot and RING OUT: logs 6, 16, 18). -/
def Rif.reset : Rif :=
  { recv := .hunt, run := 0, last := none, loss := none, lossSinceGood := false, lossCount := 0, frame := none,
    joined := false, reporting := true, held := false, addr := 1, slotOpen := false, byp := true, out := none }

/-- The notice UNIT_STARTED of a unit with this address (R174). -/
def unitStarted (addr : BitVec 5) : Record :=
  .notice .unitStarted none none none [addr.setWidth 16, BitVec.ofNat 16 Config.partVersion]

/-- CMU after power-on reset (R174). -/
def Cmu.reset : Cmu := { queue := [], reports := [unitStarted 1], overflow := false }

/-- PST after power-on reset (R9). -/
def Pst.reset : Pst :=
  { dir := Vector.replicate 16 .empty, store := [],
    trims := Vector.replicate 16 (Vector.replicate 8 { amp := 0, phase := 0 }) }

/-- LDU after power-on reset (R150). -/
def Ldu.reset : Ldu := { claims := Vector.replicate 18 none, buf := none, staging16 := [], staging17 := [] }

/-- TXE after power-on reset (R57). -/
def Txe.reset : Txe := { array := .unset, armed := none, history := [], seq := 0, frame := none }

/-- A tower after power-on reset, its RDY line low (R37, R36; log 6). -/
def Tower.reset : Tower :=
  { amp := 0, phase := 0, order := .rest, ready := false, debounce := none, rdyLine := false, clipNoticed := true,
    port := none }

/-- DSY after power-on reset, ILK open (R34, R37; log 6). -/
def Dsy.reset : Dsy :=
  { towers := Vector.replicate 8 Tower.reset, heldEnvelope := 32768, heldReference := 0, lastNumber := none,
    localPace := true, paceLeft := Config.paceQuarters, ilkClosed := false, ilkTimer := none, ilkLine := false }

/-- A contactor number after power-on reset, its inputs de-asserted (R41, R54; log 6). -/
def ContactorUnit.reset : ContactorUnit :=
  { openLine := false, closedLine := false, openShown := false, closedShown := false, openTimer := none,
    closedTimer := none, entry := none }

/-- CTU after power-on reset (R54). -/
def Ctu.reset : Ctu := { units := Vector.replicate 24 ContactorUnit.reset, guard := none }

/-- MON after power-on reset (R121). -/
def Mon.reset : Mon :=
  { present := false, absence := none, lastSeq := none, active := none,
    towers := Vector.replicate 8 { status := .held, count := 0, limitNoticed := false }, holdOff := none, spent := false }

/-- SCU after power-on reset (R135). -/
def Scu.reset : Scu :=
  { clock := .unset, stale := none, table := Vector.replicate 48 none, deferred := none, hold := false, held := none }

/-- The machine right after a power-on reset, with REFCLK running and every input line inactive (log 6). -/
def State.reset : State :=
  { running := true, refclk := true, quarter := 0, rif := Rif.reset, cmu := Cmu.reset, pst := Pst.reset,
    ldu := Ldu.reset, txe := Txe.reset, dsy := Dsy.reset, ctu := Ctu.reset, mon := Mon.reset, scu := Scu.reset,
    pending := [] }

end Sys2Proof.Machine
end

