-- ==== Sys2Proof/Machine/Ops.lean ====
section
/-! DEFINITION. The named operations over the state: indexed blocks, word memory and regions, the fields of a pattern record,
arithmetic of the conventions, and the entry of records into the Report Queue. -/
namespace Sys2Proof.Machine

/-- What a meaning answers. -/
abbrev Result := Host.Outcome State Fault Refusal

/-! ## Indexed blocks and sets -/

/-- Replace entry i. -/
def setAt {α : Type} {n : Nat} (v : Vector α n) (i : Fin n) (x : α) : Vector α n := v.set i.val x i.isLt

/-- Change entry i. -/
def modifyAt {α : Type} {n : Nat} (v : Vector α n) (i : Fin n) (f : α → α) : Vector α n := setAt v i (f v[i])

/-- Towers in ascending order. -/
def allTowers : List TowerIx := [0, 1, 2, 3, 4, 5, 6, 7]

/-- Slots in ascending order. -/
def allSlots : List Slot := List.finRange 16

/-- Contactor numbers in ascending order. -/
def allContactors : List ContactorIx := List.finRange 24

/-- Schedule entry numbers in ascending order. -/
def allEntries : List EntryIx := List.finRange 48

/-- Load targets in ascending order. -/
def allTargets : List Target := List.finRange 18

/-- Membership of an index in a set of bits. -/
def has {n : Nat} (s : BitVec n) (i : Fin n) : Bool := s.getLsbD i.val

/-- The set of the indexes that satisfy a test. -/
def setOf {n : Nat} (p : Fin n → Bool) : BitVec n :=
  (List.finRange n).foldl (fun s i => if p i then s ||| BitVec.twoPow n i.val else s) 0

/-- The set with index i taken in. -/
def insertIx {n : Nat} (s : BitVec n) (i : Fin n) : BitVec n := s ||| BitVec.twoPow n i.val

/-- The set with index i left out. -/
def removeIx {n : Nat} (s : BitVec n) (i : Fin n) : BitVec n := s &&& ~~~(BitVec.twoPow n i.val)

/-! ## Words -/

/-- A number as a word. -/
def word (n : Nat) : Word := BitVec.ofNat 16 n

/-- A signed quantity as a two's complement word (R176). -/
def signedWord (i : Int) : Word := BitVec.ofInt 16 i

/-- The field of `len` bits from bit `lo` of a word. -/
def field (w : Word) (lo len : Nat) : Nat := w.toNat / 2 ^ lo % 2 ^ len

/-- A 32-bit quantity as two words, high word first (R176). -/
def twoWords (f : BitVec 32) : List Word := [f.extractLsb' 16 16, f.extractLsb' 0 16]

/-- Two words, high word first, as a 32-bit quantity (R176). -/
def joinWords (hi lo : Word) : BitVec 32 := hi ++ lo

/-- A slot field, 255 when absent (R176). -/
def slotByte : Option Slot → Nat
  | none => 255
  | some p => p.val

/-- A frame number field of two words, 0 when absent (R176). -/
def optFrameWords : Option FrameNum → List Word
  | none => [0, 0]
  | some f => twoWords f

/-! ## Arithmetic of the conventions (spec/00_scope.md, section 6) -/

/-- Quotient rounded to the nearest whole number, a half away from zero. -/
def roundDiv (n d : Nat) : Nat := (2 * n + d) / (2 * d)

/-- The same for a signed numerator. -/
def roundDivInt (n : Int) (d : Nat) : Int :=
  if 0 ≤ n then (roundDiv n.toNat d : Int) else -(roundDiv (-n).toNat d : Int)

/-- A phase difference folded into -18000 to +18000 hundredths, exactly 180.00° as +18000. -/
def fold (x : Int) : Int := if 18000 < x % 36000 then x % 36000 - 36000 else x % 36000

/-- How far frame a lies ahead of frame c, modulo 2^32. -/
def aheadBy (a c : FrameNum) : Nat := (a - c).toNat

/-- Frame a is ahead of frame c: the difference lies between 1 and 2^31 − 1. -/
def isAhead (a c : FrameNum) : Bool := 1 ≤ aheadBy a c && aheadBy a c < 2 ^ 31

/-- A value limited to a bound in both signs. -/
def clamp (bound : Nat) (x : Int) : Int := max (-(bound : Int)) (min (bound : Int) x)

/-! ## Word memory (R1) -/

/-- The word at an address; an unlisted address reads as zero (R1: zero at power-on reset). -/
def Mem.read : Mem → Nat → Word
  | [], _ => 0
  | (b, v) :: m, a => if b = a then v else Mem.read m a

/-- Write one word, keeping the canonical form. -/
def Mem.write : Mem → Nat → Word → Mem
  | [], a, v => if v = 0 then [] else [(a, v)]
  | (b, w) :: m, a, v =>
    if a < b then (if v = 0 then (b, w) :: m else (a, v) :: (b, w) :: m)
    else if a = b then (if v = 0 then m else (a, v) :: m)
    else (b, w) :: Mem.write m a v

/-- Write words at consecutive addresses, in order. -/
def Mem.writeAll : Mem → Nat → List Word → Mem
  | m, _, [] => m
  | m, a, v :: vs => Mem.writeAll (Mem.write m a v) (a + 1) vs

/-- Set `len` words from address a to zero. -/
def Mem.clear (m : Mem) (a len : Nat) : Mem := m.filter fun c => c.1 < a || a + len ≤ c.1

/-- The canonical form: addresses strictly rising, no listed word zero. -/
abbrev Mem.wf (m : Mem) : Prop := m.Pairwise (fun x y => x.1 < y.1) ∧ ∀ c ∈ m, c.2 ≠ 0

/-! ## Slots and regions (R1 to R9) -/

/-- Base and length of the slot's region, in the states that have one (R2). -/
def SlotEntry.region : SlotEntry → Option (Nat × Nat)
  | .empty => none
  | .loading b l _ => some (b, l)
  | .checking b l _ => some (b, l)
  | .valid b l _ _ => some (b, l)

/-- The slot is VALID. -/
def SlotEntry.isValid : SlotEntry → Bool
  | .valid _ _ _ _ => true
  | .empty | .loading _ _ _ | .checking _ _ _ => false

/-- Word k of the slot's region; zero at or beyond its length (R1, R7). -/
def Pst.slotWord (p : Pst) (k : Slot) (off : Nat) : Word :=
  match p.dir[k].region with
  | none => 0
  | some (b, l) => if off < l then p.store.read (b + off) else 0

/-- The directory with slot k's entry replaced. -/
def Pst.setEntry (p : Pst) (k : Slot) (e : SlotEntry) : Pst := { p with dir := setAt p.dir k e }

/-- The trims of slot k set to zero for all eight towers (R4, R19). -/
def Pst.clearTrims (p : Pst) (k : Slot) : Pst :=
  { p with trims := setAt p.trims k (Vector.replicate 8 { amp := 0, phase := 0 }) }

/-- The trim of slot k and tower t. -/
def Pst.trim (p : Pst) (k : Slot) (t : TowerIx) : Trim := p.trims[k][t]

/-- The slot is VALID. -/
def Pst.isValid (p : Pst) (k : Slot) : Bool := p.dir[k].isValid

/-- The label of a VALID slot, zero otherwise. -/
def Pst.label (p : Pst) (k : Slot) : Label :=
  match p.dir[k] with
  | .valid _ _ _ l => l
  | .empty | .loading _ _ _ | .checking _ _ _ => 0

/-! ## Fields of a pattern record (R11 to R15; words placed by 11_formats_pins_and_ratings.md, 11.4).
A record is read as a function from its offsets to its words. -/

/-- A ramp-length field: 0 means 4096 frames (R12). -/
def rampLength (f : Nat) : Nat := if f = 0 then 4096 else f

/-- The two label words. -/
def recLabel (w : Nat → Word) : Label := joinWords (w 1) (w 2)
/-- Tower set, bits 0 to 7 of word 3. -/
def recTowers (w : Nat → Word) : TowerSet := (w 3).setWidth 8
/-- Reference tower; none for EXTERNAL. -/
def recReference (w : Nat → Word) : Option TowerIx :=
  if h : (w 4).toNat < 8 then some ⟨(w 4).toNat, h⟩ else none
/-- Power scale in 1/32768. -/
def recScale (w : Nat → Word) : Nat := (w 5).toNat
/-- Ramp-down length in frames. -/
def recDown (w : Nat → Word) : Nat := rampLength (w 6).toNat
/-- Ramp-up length in frames. -/
def recUp (w : Nat → Word) : Nat := rampLength (w 7).toNat
/-- Settle time in ms. -/
def recSettle (w : Nat → Word) : Nat := (w 8).toNat
/-- Monitor hold-off in ms. -/
def recHoldOff (w : Nat → Word) : Nat := (w 9).toNat
/-- Default mode. -/
def recMode (w : Nat → Word) : ReqMode := if field (w 10) 0 2 = 1 then .blend else .fullMute
/-- Blend permitted. -/
def recBlend (w : Nat → Word) : Bool := field (w 10) 4 2 == 1
/-- Trim enabled. -/
def recTrimOn (w : Nat → Word) : Bool := field (w 10) 8 2 == 1
/-- Grace count. -/
def recGrace (w : Nat → Word) : Nat := field (w 11) 0 8
/-- Ratio deadband in tenths of a percent. -/
def recRatioBand (w : Nat → Word) : Nat := field (w 11) 8 8
/-- Fault action and fallback: a slot for FALLBACK, none for REPORT. -/
def recFallback (w : Nat → Word) : Option Slot :=
  if h : (w 12).toNat < 16 then some ⟨(w 12).toNat, h⟩ else none
/-- Trim amplitude bound. -/
def recAmpBound (w : Nat → Word) : Nat := (w 13).toNat
/-- Trim phase bound. -/
def recPhaseBound (w : Nat → Word) : Nat := (w 14).toNat
/-- Phase deadband in hundredths. -/
def recPhaseBand (w : Nat → Word) : Nat := (w 15).toNat

/-- How many towers a set names. -/
def towerCount (s : TowerSet) : Nat := (allTowers.filter (has s)).length

/-- How many towers of the set lie below t: the index of t's entry (R10, R14). -/
def entryIndex (s : TowerSet) (t : TowerIx) : Nat := (allTowers.filter fun u => has s u && u.val < t.val).length

/-- Word j of the entry of tower t (R14). -/
def recEntry (w : Nat → Word) (t : TowerIx) (j : Nat) : Word := w (16 + 7 * entryIndex (recTowers w) t + j)

/-- Drive amplitude of tower t. -/
def recAmp (w : Nat → Word) (t : TowerIx) : Nat := (recEntry w t 1).toNat
/-- Drive phase of tower t. -/
def recPhase (w : Nat → Word) (t : TowerIx) : Nat := (recEntry w t 2).toNat
/-- Licensed ratio of tower t. -/
def recRatio (w : Nat → Word) (t : TowerIx) : Nat := (recEntry w t 3).toNat
/-- Licensed phase of tower t. -/
def recLicPhase (w : Nat → Word) (t : TowerIx) : Int := (recEntry w t 4).toInt
/-- Ratio tolerance of tower t, in tenths of a percent. -/
def recRatioTol (w : Nat → Word) (t : TowerIx) : Nat := (recEntry w t 5).toNat
/-- Phase tolerance of tower t, in hundredths. -/
def recPhaseTol (w : Nat → Word) (t : TowerIx) : Nat := (recEntry w t 6).toNat

/-- Offset of the count word (R10). -/
def countOffset (w : Nat → Word) : Nat := 16 + 7 * towerCount (recTowers w)

/-- A requirement entry: contactor number in bits 0 to 7, position in bits 8 to 15 (11.4). -/
def requirement (w : Word) : Option (ContactorIx × Position) :=
  if h : field w 0 8 < 24 then some (⟨field w 0 8, h⟩, if field w 8 8 = 1 then .closed else .opened) else none

/-- The requirement list (R15). -/
def recRequirements (w : Nat → Word) : List (ContactorIx × Position) :=
  (List.range (min (w (countOffset w)).toNat 24)).filterMap fun j => requirement (w (countOffset w + 1 + j))

/-! ## Replacing one block of the state -/

/-- The state with RIF replaced. -/
def State.setRif (s : State) (b : Rif) : State := { s with rif := b }
/-- The state with CMU replaced. -/
def State.setCmu (s : State) (b : Cmu) : State := { s with cmu := b }
/-- The state with PST replaced. -/
def State.setPst (s : State) (b : Pst) : State := { s with pst := b }
/-- The state with LDU replaced. -/
def State.setLdu (s : State) (b : Ldu) : State := { s with ldu := b }
/-- The state with TXE replaced. -/
def State.setTxe (s : State) (b : Txe) : State := { s with txe := b }
/-- The state with DSY replaced. -/
def State.setDsy (s : State) (b : Dsy) : State := { s with dsy := b }
/-- The state with CTU replaced. -/
def State.setCtu (s : State) (b : Ctu) : State := { s with ctu := b }
/-- The state with MON replaced. -/
def State.setMon (s : State) (b : Mon) : State := { s with mon := b }
/-- The state with SCU replaced. -/
def State.setScu (s : State) (b : Scu) : State := { s with scu := b }
/-- The state with the queue of waiting commands replaced. -/
def State.setPending (s : State) (q : List Instr) : State := { s with pending := q }
/-- The state with the array state replaced. -/
def State.setArray (s : State) (a : ArrayState) : State := s.setTxe { s.txe with array := a }
/-- The state with the Armed Request replaced. -/
def State.setArmed (s : State) (a : Option Armed) : State := s.setTxe { s.txe with armed := a }
/-- The state with the Transition History replaced. -/
def State.setHistory (s : State) (h : List HistRecord) : State := s.setTxe { s.txe with history := h }

/-! ## The Report Queue (R171, R172) -/

/-- A record enters at the tail, or is discarded with the overflow flag set when 32 are queued (R172). -/
def Cmu.enter (c : Cmu) (r : Record) : Cmu :=
  if c.reports.length < 32 then { c with reports := c.reports ++ [r] } else { c with overflow := true }

/-- The record enters the Report Queue of the unit. -/
def State.enter (s : State) (r : Record) : State := s.setCmu (s.cmu.enter r)

/-- The frame number a notice carries: RIF's current frame number, absent at the local pace (R171). -/
def State.stamp (s : State) : Option FrameNum := if s.dsy.localPace then none else s.rif.frame

/-- A block raises a notice (R171). -/
def State.raise (s : State) (kind : NoticeKind) (subject : Option (BitVec 8)) (details : List Word) : State :=
  s.enter (.notice kind s.stamp subject none details)

/-- A subject of a notice. -/
def subjectOf (n : Nat) : Option (BitVec 8) := some (BitVec.ofNat 8 n)

/-! ## Gates every event passes -/

/-- An event that the unit takes only while it is powered and out of reset (R158, R177). -/
def whileRunning (f : State → State) (s : State) : State := if s.running then f s else s

/-- An interval-timer event: it comes only while the unit runs and REFCLK runs (R177). -/
def whileCounting (f : State → State) (s : State) : State := if s.running && s.refclk then f s else s

end Sys2Proof.Machine
end

