-- ==== Sys2Proof/Machine/Operands.lean ====
section
/-! DEFINITION. What a port carries: the check word (R153), the frames of the ring and the monitor port (R152, R176), the
command codes, and the parameters of the twenty commands with their admitted counts and ranges (R166). -/
namespace Sys2Proof.Machine

/-! ## The check word (R153, R16, R105) -/

/-- One bit into the register of x^16 + x^12 + x^5 + 1. -/
def crcBit (r : Word) (b : Bool) : Word := if r.msb != b then (r <<< 1) ^^^ 0x1021#16 else r <<< 1

/-- The bits of a word, most significant first. -/
def wordBits (w : Word) : List Bool := (List.range 16).map fun i => w.getLsbD (15 - i)

/-- The register after one word. -/
def crcWord (r : Word) (w : Word) : Word := (wordBits w).foldl crcBit r

/-- Go on with the value of a word: `withValue r k` is `k r`, written so that Lean's kernel works out r first. -/
def withValue {α : Type} (r : Word) (k : Word → α) : α :=
  match r.toNat with
  | 0 => k 0
  | n + 1 => k (BitVec.ofNat 16 (n + 1))

/-- The register after a list of words. -/
def crcWords (r : Word) : List Word → Word
  | [] => r
  | w :: ws => withValue (crcWord r w) fun q => crcWords q ws

/-- The check word of a list of words: register preset to all ones, result inverted. -/
def checkWord (ws : List Word) : Word := ~~~(crcWords 0xFFFF#16 ws)

/-- The words of a received frame before its check word, when it is complete and its check word is right (R152). -/
def checkedWords (rx : Rx) : Option (List Word) :=
  if rx.aborted then none
  else if rx.words = [] then none
  else if rx.words.getLast? = some (checkWord rx.words.dropLast) then some rx.words.dropLast
  else none

/-- Words with their check word, as a port sends them. -/
def sealWords (ws : List Word) : Rx := { words := ws ++ [checkWord ws], aborted := false }

/-! ## Ring frames (R152, R176, 11.2) -/

/-- A valid sample frame. -/
structure Sample where
  number    : FrameNum
  reference : Word
  envelope  : List Word
deriving DecidableEq, Repr

/-- The sample frame received, when it is valid: kind 1, a body of 51 words, check word right. -/
def parseSample (rx : Rx) : Option Sample :=
  match checkedWords rx with
  | some (k :: hi :: lo :: r :: env) =>
    if k = 1 ∧ env.length = 48 then some { number := joinWords hi lo, reference := r, envelope := env } else none
  | _ => none

/-- The words of a sample frame before its check word. -/
def sampleWords (f : Sample) : List Word := 1 :: (twoWords f.number ++ f.reference :: f.envelope)

/-- The MGMT frame received, when it is valid: kind 3, as many parameters as its count. -/
def parseMgmt (rx : Rx) : Option Mgmt :=
  match checkedWords rx with
  | some (k :: w0 :: w1 :: n :: ps) =>
    if k = 3 ∧ ps.length = n.toNat then
      some { dest := w0.extractLsb' 0 5, source := w0.extractLsb' 8 3, tag := w1.extractLsb' 0 8,
             code := w1.extractLsb' 8 8, params := ps }
    else none
  | _ => none

/-- The words of a MGMT frame before its check word. -/
def mgmtWords (m : Mgmt) : List Word :=
  3 :: (m.dest.setWidth 16 ||| m.source.setWidth 16 <<< 8) :: (m.tag.setWidth 16 ||| m.code.setWidth 16 <<< 8)
    :: word m.params.length :: m.params

/-- The body of a TIME frame as received. -/
structure TimeBody where
  year    : Word
  monthDay : Word
  secHi   : Word
  secLo   : Word
deriving DecidableEq, Repr

/-- The TIME frame received, when it is valid. -/
def parseTime (rx : Rx) : Option TimeBody :=
  match checkedWords rx with
  | some [k, y, md, hi, lo] =>
    if k = 4 then some { year := y, monthDay := md, secHi := hi, secLo := lo } else none
  | _ => none

/-- A valid RELEASE: kind 5, no body. -/
def isRelease (rx : Rx) : Bool := checkedWords rx == some [5]

/-- A valid EMPTY: kind 2, no body. -/
def isEmpty (rx : Rx) : Bool := checkedWords rx == some [2]

/-! ## Monitor records (R105, 11.5) -/

/-- A monitor record whose check word is right: sequence number, flag word, 18 words of channels. -/
structure MonRecord where
  seq   : BitVec 8
  flags : Word
  data  : List Word
deriving DecidableEq, Repr

/-- The monitor record received, when it is whole and its check word is right. -/
def parseMonRecord (rx : Rx) : Option MonRecord :=
  match checkedWords rx with
  | some (w0 :: f :: d) =>
    if d.length = 18 then some { seq := w0.extractLsb' 0 8, flags := f, data := d } else none
  | _ => none

/-- Magnitude of channel c. -/
def MonRecord.magnitude (r : MonRecord) (c : Nat) : Nat := (r.data.getD (2 * c) 0).toNat

/-- Phase of channel c, in hundredths. -/
def MonRecord.phase (r : MonRecord) (c : Nat) : Nat := (r.data.getD (2 * c + 1) 0).toNat

/-- Channel c is valid: its flag is set and its phase does not lie above 35999 (R105). -/
def MonRecord.channelValid (r : MonRecord) (c : Nat) : Bool := r.flags.getLsbD c && r.phase c ≤ 35999

/-! ## Command codes (R166, R176) -/

/-- The twenty commands. -/
inductive Cmd where
  | status | switch | withdraw | go | continueTx | retreat | mute | move | ackFault | trimClear | scheduleHold
  | claim | load | commit | finish | unclaim | read | reporting | clearOverflow | restart
deriving DecidableEq, Repr

/-- The twenty commands in the order of the command summary. -/
def Cmd.all : List Cmd :=
  [.status, .switch, .withdraw, .go, .continueTx, .retreat, .mute, .move, .ackFault, .trimClear, .scheduleHold,
   .claim, .load, .commit, .finish, .unclaim, .read, .reporting, .clearOverflow, .restart]

/-- Command codes follow the command summary: STATUS is 1 and RESTART is 20 (R176). -/
def Cmd.code : Cmd → BitVec 8
  | .status => 1 | .switch => 2 | .withdraw => 3 | .go => 4 | .continueTx => 5 | .retreat => 6 | .mute => 7
  | .move => 8 | .ackFault => 9 | .trimClear => 10 | .scheduleHold => 11 | .claim => 12 | .load => 13
  | .commit => 14 | .finish => 15 | .unclaim => 16 | .read => 17 | .reporting => 18 | .clearOverflow => 19
  | .restart => 20

/-- The command a code names, if it is one of the twenty. -/
def Cmd.ofCode (b : BitVec 8) : Option Cmd := Cmd.all.find? fun c => c.code == b

/-- The commands that may be sent to destination 0 (R167). -/
def Cmd.broadcast : Cmd → Bool
  | .status | .switch | .withdraw | .go | .mute | .ackFault | .scheduleHold | .reporting => true
  | .continueTx | .retreat | .move | .trimClear | .claim | .load | .commit | .finish | .unclaim | .read
  | .clearOverflow | .restart => false

/-- The admitted parameter counts (11.2, Command parameters). -/
def Cmd.admitsCount : Cmd → Nat → Bool
  | .switch, n => n == 6
  | .go, n => n == 3
  | .mute, n => n == 1
  | .move, n => n == 1
  | .trimClear, n => n == 1
  | .unclaim, n => n == 1
  | .scheduleHold, n => n == 1
  | .reporting, n => n == 1
  | .claim, n => n == 4
  | .load, n => 3 ≤ n && n ≤ 56
  | .commit, n => n == 2
  | .finish, n => n == 2
  | .read, n => n == 3
  | .status, n | .withdraw, n | .continueTx, n | .retreat, n | .ackFault, n | .clearOverflow, n | .restart, n => n == 0

/-- Parameter word k of a MGMT frame. -/
def Mgmt.param (m : Mgmt) (k : Nat) : Word := m.params.getD k 0

/-- The same as a number. -/
def Mgmt.num (m : Mgmt) (k : Nat) : Nat := (m.param k).toNat

/-- The range test of each parameter word, in ascending order: its offset, and whether its value is one the command admits
(R166 test 4; ranges of R59, R77, R94, R50, R120, R133, R163, R138, R142, R144, R145, R148, R149). A word whose field is
absent is ignored (11.2); the base of targets 16 and 17 is not examined (R138; log 17). -/
def Cmd.ranges (c : Cmd) (m : Mgmt) : List (Nat × Bool) :=
  match c with
  | .switch =>
    [(0, field (m.param 0) 4 2 ≤ 2),
     (1, !(m.param 0).getLsbD 8 || (10 ≤ m.num 1 && m.num 1 ≤ 10000)),
     (4, !(m.param 0).getLsbD 10 || m.num 4 ≤ 4095),
     (5, !(m.param 0).getLsbD 11 || m.num 5 ≤ 4095)]
  | .mute => [(0, m.num 0 ≤ 4095 || m.num 0 == 65535)]
  | .move => [(0, field (m.param 0) 0 8 ≤ 23 && field (m.param 0) 8 8 ≤ 1)]
  | .trimClear => [(0, m.num 0 ≤ 15)]
  | .unclaim => [(0, m.num 0 ≤ 17)]
  | .scheduleHold => [(0, !((m.param 0).getLsbD 0 && (m.param 0).getLsbD 1))]
  | .reporting => [(0, m.num 0 ≤ 1)]
  | .claim =>
    [(0, m.num 0 ≤ 17), (1, 16 ≤ m.num 0 || m.num 1 ≤ 2047), (2, 1 ≤ m.num 2 && m.num 2 ≤ 2048), (3, m.num 3 ≤ 64)]
  | .load => [(0, m.num 0 ≤ 17), (1, m.num 1 ≤ 2047)]
  | .commit => [(0, m.num 0 ≤ 17), (1, m.num 1 ≤ 2047 || m.num 1 == 65535)]
  | .finish => [(0, m.num 0 ≤ 17)]
  | .read => [(0, m.num 0 ≤ 19), (1, m.num 1 ≤ 2047), (2, 1 ≤ m.num 2 && m.num 2 ≤ 48)]
  | .status | .withdraw | .go | .continueTx | .retreat | .ackFault | .clearOverflow | .restart => []

/-- What a command is answered with: an outcome and its data words (R168). -/
structure Answer where
  outcome : OutcomeCode
  data    : List Word
deriving DecidableEq, Repr

/-- Tests 2 to 4 of R166 on a frame whose code names command c: the refusal of the first that applies. -/
def precheck (c : Cmd) (m : Mgmt) : Option Answer :=
  if m.dest = 0 ∧ c.broadcast = false then some { outcome := .badAddress, data := [] }
  else if c.admitsCount m.params.length = false then some { outcome := .badParam, data := [word m.params.length] }
  else match (c.ranges m).find? (fun r => !r.2) with
    | some r => some { outcome := .badParam, data := [word r.1] }
    | none => none

/-! ## Decoded parameters -/

/-- The parameters of SWITCH (R59, 11.2); overrides with a field of 0 already converted to 4096. -/
structure SwitchParams where
  target : Slot
  mode   : ReqMode
  frame  : Option FrameNum
  joint  : Option Nat
  down   : Option Nat
  up     : Option Nat
deriving DecidableEq, Repr

/-- Mode field of SWITCH and of a schedule entry: 0 DEFAULT, 1 FULL_MUTE, 2 BLEND (11.2, 11.4). -/
def reqMode (n : Nat) : ReqMode := if n = 1 then .fullMute else if n = 2 then .blend else .default

/-- A field present or absent. -/
def presentIf {α : Type} (p : Bool) (x : α) : Option α := if p then some x else none

/-- The parameters of a SWITCH frame. -/
def switchParams (m : Mgmt) : SwitchParams :=
  { target := Fin.ofNat 16 (field (m.param 0) 0 4)
    mode := reqMode (field (m.param 0) 4 2)
    joint := presentIf ((m.param 0).getLsbD 8) (m.num 1)
    frame := presentIf ((m.param 0).getLsbD 9) (joinWords (m.param 2) (m.param 3))
    down := presentIf ((m.param 0).getLsbD 10) (rampLength (m.num 4))
    up := presentIf ((m.param 0).getLsbD 11) (rampLength (m.num 5)) }

/-- The optional activation frame of GO (R77, 11.2). -/
def goFrame (m : Mgmt) : Option FrameNum := presentIf ((m.param 0).getLsbD 0) (joinWords (m.param 1) (m.param 2))

/-- The ramp length of MUTE: absent means the standard mute ramp (R94). -/
def muteLength (m : Mgmt) : Nat := if m.num 0 = 65535 then Config.muteRamp else rampLength (m.num 0)

/-- Contactor and position of MOVE (R50, 11.2). -/
def moveParams (m : Mgmt) : ContactorIx × Position :=
  (Fin.ofNat 24 (field (m.param 0) 0 8), if field (m.param 0) 8 8 = 1 then .closed else .opened)

/-- The load target of a command that names one of 0 to 17 (R136). -/
def targetParam (m : Mgmt) : Target := Fin.ofNat 18 (m.num 0)

/-- Segment length field: 0 means 64 (R138). -/
def segmentLength (n : Nat) : Nat := if n = 0 then 64 else n

/-- The slot of a load target, when it is one (R136). -/
def targetSlot (t : Target) : Option Slot := if h : t.val < 16 then some ⟨t.val, h⟩ else none

end Sys2Proof.Machine
end

