-- ==== Sys2Proof/Machine/Flags.lean ====
section
/-! DEFINITION. What the state shows: the codes of enumerated quantities (R176), the derived flags (at rest, in use, command
lines, readings), the STATUS words, the words of records, history and drive frames. -/
namespace Sys2Proof.Machine

/-! ## Codes (R176: numbered from 1 in the order of the owning rule, 0 for none) -/

/-- Outcome codes follow R169. -/
def OutcomeCode.code : OutcomeCode → Nat
  | .done => 1 | .armed => 2 | .started => 3 | .empty => 4 | .alreadyActive => 5 | .busy => 6 | .late => 7
  | .far => 8 | .notValid => 9 | .notPermitted => 10 | .notReady => 11 | .wrongState => 12 | .interlock => 13
  | .inUse => 14 | .heldBy => 15 | .notClaimed => 16 | .offset => 17 | .range => 18 | .overlap => 19
  | .bufferBusy => 20 | .referenced => 21 | .badParam => 22 | .badAddress => 23 | .unknown => 24 | .overrun => 25

/-- Notice kinds follow the catalogue of R171. -/
def NoticeKind.code : NoticeKind → Nat
  | .unitStarted => 1 | .clipping => 2 | .interlockOpened => 3 | .interlockClosed => 4 | .cabinetFault => 5
  | .cabinetReady => 6 | .contactorConfirmed => 7 | .contactorStuck => 8 | .contactorDisagree => 9
  | .contactorAgree => 10 | .armedWithdrawn => 11 | .txStarted => 12 | .txReadyUp => 13 | .txCompleted => 14
  | .txHalted => 15 | .txAtRest => 16 | .txContinued => 17 | .muted => 18 | .monitorPresent => 19
  | .monitorAbsent => 20 | .toleranceFault => 21 | .toleranceClear => 22 | .trimLimit => 23 | .timeInvalid => 24
  | .clockStale => 25 | .clockSet => 26 | .clockStepped => 27 | .scheduleDue => 28 | .claimLapsed => 29
  | .checkDone => 30 | .ringLost => 31 | .ringRegained => 32 | .ringJoined => 33

/-- Array states follow R56. -/
def ArrayState.code : ArrayState → Nat
  | .unset => 1 | .active _ => 2 | .rampDown _ => 3 | .switching _ => 4 | .settle _ _ => 5 | .readyUp _ _ => 6
  | .rampUp _ _ => 7 | .halted _ => 8 | .muting => 9 | .muted _ => 10

/-- Causes follow R80. -/
def Cause.code : Cause → Nat
  | .command => 1 | .schedule => 2 | .fallback => 3 | .resume => 4 | .retreat => 5

/-- Modes of a transition: FULL_MUTE 1, BLEND 2. -/
def Mode.code : Mode → Nat
  | .fullMute => 1 | .blend => 2

/-- Halt reasons follow R83. -/
def HaltReason.code : HaltReason → Nat
  | .stuck => 1 | .drift => 2 | .cabinet => 3 | .gate => 4 | .ring => 5 | .interlock => 6

/-- Halted steps follow R84. -/
def HaltedStep.code : HaltedStep → Nat
  | .rampDown => 1 | .switching => 2 | .settle => 3 | .readyUp => 4 | .rampUp => 5 | .active => 6

/-- A halt subject's byte; 255 for none (R176). -/
def HaltSubject.byte : HaltSubject → Nat
  | .none => 255 | .contactor c => c.val | .tower t => t.val

/-- Positions in details: 0 OPEN, 1 CLOSED, as 11.2 and 11.4 list them. DEDUCED, log 12. -/
def Position.code : Position → Nat
  | .opened => 0 | .closed => 1

/-- Readings follow R41. -/
def Reading.code : Reading → Nat
  | .showsOpen => 1 | .showsClosed => 2 | .neither => 3 | .both => 4

/-- Contactor states follow R42. -/
def ContactorState.code : ContactorState → Nat
  | .opened => 1 | .closed => 2 | .toOpen _ => 3 | .toClosed _ => 4 | .stuck => 5 | .disagree => 6

/-- Tolerance statuses follow R107. -/
def Tolerance.code : Tolerance → Nat
  | .notInPattern => 1 | .held => 2 | .inTol => 3 | .out => 4 | .fault => 5

/-- Clock states: 0 UNSET, 1 SET, 2 STALE (11.3). -/
def Clock.code : Clock → Nat
  | .unset => 0 | .set _ _ => 1 | .stale _ _ => 2

/-- Receive states: 0 HUNT, 1 SYNC, 2 GOOD (11.3). -/
def RecvState.code : RecvState → Nat
  | .hunt => 0 | .sync => 1 | .good => 2

/-- History outcomes: 0 OPEN, 1 COMPLETED, 2 MUTED, 3 ABANDONED (11.3). -/
def HistOutcome.code : HistOutcome → Nat
  | .opened => 0 | .completed => 1 | .muted => 2 | .abandoned => 3

/-- Drive states: 0 IDLE, 1 RAMPING, 2 DRIVEN (11.5). -/
def DriveState.code : DriveState → Nat
  | .idle => 0 | .ramping => 1 | .driven => 2

/-! ## Towers at rest (R27; log 8) -/

/-- A ramp is in progress. -/
def TowerOrder.isRamp : TowerOrder → Bool
  | .ramp _ => true
  | .rest | .follow _ => false

/-- The order is REST. -/
def TowerOrder.isRest : TowerOrder → Bool
  | .rest => true
  | .follow _ | .ramp _ => false

/-- At rest: the last drive frame carried amplitude zero and no ramp is in progress, the first sentence of R27. A ramp that
stands at amplitude zero and is cancelled makes its tower at rest at once; R27's second sentence, R31, R33, R35 and R103 speak of
the IDLE frame that follows. DESIGN CHOICE, log 39. -/
def Tower.atRest (x : Tower) : Bool := x.amp == 0 && !x.order.isRamp

/-- Tower t is at rest. -/
def Dsy.atRest (d : Dsy) (t : TowerIx) : Bool := d.towers[t].atRest

/-- Every tower of the set is at rest. -/
def Dsy.restIn (d : Dsy) (s : TowerSet) : Bool := allTowers.all fun t => !has s t || d.atRest t

/-- All eight towers are at rest. -/
def Dsy.allAtRest (d : Dsy) : Bool := allTowers.all fun t => d.atRest t

/-! ## Contactors (R39 to R42) -/

/-- The reading formed from the two debounced levels (R41). -/
def ContactorUnit.reading (u : ContactorUnit) : Reading :=
  match u.openShown, u.closedShown with
  | true, false => .showsOpen
  | false, true => .showsClosed
  | false, false => .neither
  | true, true => .both

/-- A reading agrees with a commanded position (R41). -/
def Reading.agrees : Reading → Position → Bool
  | .showsOpen, .opened => true
  | .showsClosed, .closed => true
  | .showsOpen, .closed | .showsClosed, .opened | .neither, _ | .both, _ => false

/-- The level of command line CCn: true asserted. It stands at the commanded position of a defined contactor and is
de-asserted for any other (R40). -/
def Ctu.line (u : Ctu) (c : ContactorIx) : Bool :=
  match u.units[c].entry with
  | some e => e.commanded == .closed
  | none => false

/-- The state of standing at a position. -/
def standing : Position → ContactorState
  | .opened => .opened
  | .closed => .closed

/-- The contactor stands at the position, confirmed (R42). -/
def ContactorState.standsAt : ContactorState → Position → Bool
  | .opened, .opened => true
  | .closed, .closed => true
  | .opened, .closed | .closed, .opened | .toOpen _, _ | .toClosed _, _ | .stuck, _ | .disagree, _ => false

/-- The contactor travels toward the position (R42). -/
def ContactorState.travelsTo : ContactorState → Position → Bool
  | .toOpen _, .opened => true
  | .toClosed _, .closed => true
  | .toOpen _, .closed | .toClosed _, .opened | .opened, _ | .closed, _ | .stuck, _ | .disagree, _ => false

/-- The travel timer, present in TO_OPEN and TO_CLOSED (R42). -/
def ContactorState.travel : ContactorState → Option Nat
  | .toOpen t => some t
  | .toClosed t => some t
  | .opened | .closed | .stuck | .disagree => none

/-- The towers an association names (R39). -/
def Assoc.towers : Assoc → TowerSet
  | .tower t => BitVec.twoPow 8 t.val
  | .common => BitVec.allOnes 8

/-- The number of defined contactors in STUCK or DISAGREE (R42, R170). -/
def Ctu.troubled (u : Ctu) : Nat :=
  (allContactors.filter fun c => match u.units[c].entry with
    | some e => e.state == .stuck || e.state == .disagree
    | none => false).length

/-! ## Transition Engine -/

/-- In flight: the five phases and MUTING (R56). -/
def ArrayState.inFlight : ArrayState → Bool
  | .rampDown _ | .switching _ | .settle _ _ | .readyUp _ _ | .rampUp _ _ | .muting => true
  | .unset | .active _ | .halted _ | .muted _ => false

/-- The transition context, present in the five phases (R56). -/
def ArrayState.context : ArrayState → Option TxContext
  | .rampDown c => some c
  | .switching c => some c
  | .settle c _ => some c
  | .readyUp c _ => some c
  | .rampUp c _ => some c
  | .unset | .active _ | .halted _ | .muting | .muted _ => none

/-- The slots the array state holds: the active pattern, the source and target of a context, the resume pattern (R79). -/
def ArrayState.slots : ArrayState → List Slot
  | .active p => [p]
  | .rampDown c | .switching c | .settle c _ | .readyUp c _ | .rampUp c _ => c.target :: c.source.toList
  | .halted h => h.target :: h.source.toList
  | .muted r => r.toList
  | .unset | .muting => []

/-- The in-use set (R79). -/
def Txe.inUse (x : Txe) (k : Slot) : Bool :=
  x.array.slots.contains k || (x.armed.toList.map (·.target)).contains k

/-- The active pattern (R56). -/
def ArrayState.activeSlot : ArrayState → Option Slot
  | .active p => some p
  | .unset | .rampDown _ | .switching _ | .settle _ _ | .readyUp _ _ | .rampUp _ _ | .halted _ | .muting
  | .muted _ => none

/-- The resume pattern (R101). -/
def ArrayState.resume : ArrayState → Option Slot
  | .muted r => r
  | .unset | .active _ | .rampDown _ | .switching _ | .settle _ _ | .readyUp _ _ | .rampUp _ _ | .halted _
  | .muting => none

/-- The halt context (R84). -/
def ArrayState.haltContext : ArrayState → Option HaltContext
  | .halted h => some h
  | .unset | .active _ | .rampDown _ | .switching _ | .settle _ _ | .readyUp _ _ | .rampUp _ _ | .muting
  | .muted _ => none

/-- The sequence number of the newest history record. -/
def Txe.newestSeq (x : Txe) : BitVec 16 := (x.history.head?.map (·.seq)).getD 0

/-! ## STATUS (R170, 11.3) -/

/-- Bit k of a word, set when the flag is. -/
def flagBit (b : Bool) (k : Nat) : Nat := if b then 2 ^ k else 0

/-- The byte of tower t in STATUS words 9 to 12. -/
def towerByte (s : State) (t : TowerIx) : Nat :=
  flagBit (s.dsy.atRest t) 0 + flagBit s.dsy.towers[t].ready 1 + 4 * s.mon.towers[t].status.code

/-- Word 8 of STATUS: ring, monitor, clock, interlock and reports. -/
def statusFlags (s : State) : Nat :=
  s.rif.recv.code + flagBit s.rif.joined 2 + flagBit s.rif.reporting 3 + flagBit s.mon.present 4
    + 32 * s.scu.clock.code + flagBit s.scu.hold 7 + flagBit s.dsy.ilkClosed 8 + flagBit s.cmu.overflow 9

/-- The 16 data words of STATUS. -/
def statusWords (s : State) : List Word :=
  [ word (s.rif.addr.toNat + 256 * Config.partVersion),
    word (s.txe.array.code + 256 * slotByte s.txe.array.activeSlot) ]
  ++ (match s.txe.array.activeSlot with
      | some p => twoWords (s.pst.label p)
      | none => [0, 0])
  ++ [ word (slotByte (s.txe.armed.map (·.target)) + 256 * slotByte s.txe.array.resume) ]
  ++ optFrameWords (s.txe.armed.map (·.frame))
  ++ [ (match s.txe.array.haltContext with
        | some h => word (h.reason.code + 256 * h.subject.byte)
        | none => word (256 * 255)),
       word (statusFlags s),
       word (towerByte s 0 + 256 * towerByte s 1), word (towerByte s 2 + 256 * towerByte s 3),
       word (towerByte s 4 + 256 * towerByte s 5), word (towerByte s 6 + 256 * towerByte s 7),
       word (s.ctu.troubled + 256 * s.cmu.reports.length),
       (setOf fun t : Target => s.ldu.claims[t].isSome).setWidth 16,
       ((setOf fun t : Target => s.ldu.claims[t].isSome).extractLsb' 16 2).setWidth 16 ]

/-! ## Records in words (11.3) -/

/-- Character k (0 to 3) of a label. -/
def labelChar (l : Label) (k : Nat) : BitVec 8 := l.extractLsb' (24 - 8 * k) 8

/-- The words of a record in a REPORT frame. A notice's third and fourth label characters stand in words 0 and 3. -/
def Record.words : Record → List Word
  | .ret tag src code o data =>
    [word (data.length % 64), word (tag.toNat + 256 * src.toNat), word (code.toNat + 256 * o.code)] ++ data
  | .notice kind frame subject label details =>
    [ word (32768 + (if frame.isNone then 16384 else 0) + 256 * kind.code
            + (label.map fun l => (labelChar l 2).toNat).getD 0) ]
    ++ optFrameWords frame
    ++ [ word ((subject.map (·.toNat)).getD 255 + 256 * (label.map fun l => (labelChar l 3).toNat).getD 0) ]
    ++ (details ++ List.replicate (4 - details.length) 0).take 4

/-- How many records from the head of the queue fit a REPORT frame with `room` words left and `slots` records left (R161). -/
def fitCount : Nat → Nat → List Record → Nat
  | 0, _, _ => 0
  | _, _, [] => 0
  | slots + 1, room, r :: rs => if r.words.length ≤ room then 1 + fitCount slots (room - r.words.length) rs else 0

/-- The words of a REPORT frame before its check word (R161, 11.2). -/
def reportWords (addr : BitVec 5) (overflow : Bool) (rs : List Record) : List Word :=
  6 :: word (addr.toNat + flagBit overflow 8 + 4096 * rs.length) :: rs.flatMap Record.words

/-- The 12 words of a history record (11.3). -/
def HistRecord.words (h : HistRecord) : List Word :=
  [ h.seq,
    word (h.cause.code + flagBit (h.mode == .blend) 4 + flagBit h.joint 5 + 256 * h.outcome.code),
    word (slotByte h.source + 256 * h.target.val) ]
  ++ twoWords h.label ++ twoWords h.start ++ optFrameWords h.endFrame
  ++ [ word (h.halts + flagBit h.endFrame.isSome 15), 0, 0 ]

/-- The 53 words of a drive frame before its check word (11.5). -/
def DriveFrame.words (f : DriveFrame) : List Word :=
  twoWords f.number ++ [f.reference, word f.phase, word (f.state.code + flagBit f.saturated 8)] ++ f.samples

end Sys2Proof.Machine
end

