-- ==== Sys2Proof/Machine/Drive.lean ====
section
/-! DEFINITION. The Drive Synthesizer (02_drive_synthesis_and_tower_ports.md): applied values, orders, ramps, drive frames,
clipping, local pace, interlock qualification and cabinet READY. -/
namespace Sys2Proof.Machine

/-! ## Applied values (R24) -/

/-- (A + t) × P / 32768, rounded and limited; a sum below zero gives zero. -/
def scaledAmp (a : Nat) (t : Int) (p : Nat) : Nat := min 65536 (roundDiv (((a : Int) + t).toNat * p) 32768)

/-- φ + τ modulo 36000. -/
def trimmedPhase (phi : Nat) (tau : Int) : Nat := (((phi : Int) + tau) % 36000).toNat

/-- The applied amplitude and phase of tower t in the pattern of slot k; a tower outside the set takes amplitude zero and
keeps its phase. -/
def patternValues (p : Pst) (k : Slot) (t : TowerIx) (phaseNow : Nat) : Nat × Nat :=
  let w := p.slotWord k
  if has (recTowers w) t then
    (scaledAmp (recAmp w t) (p.trim k t).amp (recScale w), trimmedPhase (recPhase w t) (p.trim k t).phase)
  else (0, phaseNow)

/-! ## Orders (R25, R33) -/

/-- The ramp of an order with end ZERO from the tower's present values: manner HOLD. -/
def zeroRamp (x : Tower) (len : Nat) : Ramp :=
  { startAmp := x.amp, startPhase := x.phase, target := .zero, endAmp := 0, endPhase := x.phase, length := len,
    step := 0, manner := .hold }

/-- The ramp of an order with end PATTERN(k) from the tower's present values: JUMP from amplitude zero, ARC otherwise. -/
def patternRamp (p : Pst) (k : Slot) (t : TowerIx) (x : Tower) (len : Nat) : Ramp :=
  { startAmp := x.amp, startPhase := x.phase, target := .pattern k, endAmp := (patternValues p k t x.phase).1,
    endPhase := (patternValues p k t x.phase).2, length := len, step := 0,
    manner := if x.amp = 0 then .jump else .arc }

/-- A ramp order with end ZERO: REST at once from amplitude zero, and at the local pace (R25, R31); a ramp otherwise. -/
def Dsy.orderZero (d : Dsy) (len : Nat) (t : TowerIx) : Dsy :=
  { d with towers := modifyAt d.towers t fun x =>
      { x with order := if x.amp = 0 ∨ d.localPace = true then .rest else .ramp (zeroRamp x len) } }

/-- A ramp order with end PATTERN(k): discarded while the interlock stands open or DSY is at the local pace (R25). -/
def Dsy.orderPattern (d : Dsy) (p : Pst) (k : Slot) (len : Nat) (t : TowerIx) : Dsy :=
  if d.ilkClosed = false ∨ d.localPace = true then d
  else { d with towers := modifyAt d.towers t fun x => { x with order := .ramp (patternRamp p k t x len) } }

/-- A force-zero order: every named tower enters REST at once (R33). -/
def Dsy.forceZero (d : Dsy) (s : TowerSet) : Dsy :=
  { d with towers := Vector.ofFn fun t => if has s t then { d.towers[t] with order := .rest } else d.towers[t] }

/-- Ramp orders with end ZERO for every tower outside `skip` that is not in REST (R68, R86, R95). -/
def Dsy.rampDownAll (d : Dsy) (len : Nat) (skip : TowerSet) : Dsy :=
  allTowers.foldl (fun d t => if has skip t || d.towers[t].order.isRest then d else d.orderZero len t) d

/-- Ramp orders with end PATTERN(k) for every tower of the set (R73). -/
def Dsy.rampUpAll (d : Dsy) (p : Pst) (k : Slot) (len : Nat) (s : TowerSet) : Dsy :=
  allTowers.foldl (fun d t => if has s t then d.orderPattern p k len t else d) d

/-- The ACTIVE-entry signal clears the clip-noticed flags of all towers (R29). -/
def Dsy.clearClips (d : Dsy) : Dsy := { d with towers := d.towers.map fun x => { x with clipNoticed := false } }

/-! ## Ramp steps (R26) -/

/-- Applied amplitude at step k: s + (e − s) × k / L, rounded. -/
def Ramp.ampAt (r : Ramp) (k : Nat) : Nat := roundDiv (r.startAmp * (r.length - k) + r.endAmp * k) r.length

/-- The phase difference of the shorter arc, +18000 for exactly 180.00°. -/
def Ramp.arc (r : Ramp) : Int := fold ((r.endPhase : Int) - r.startPhase)

/-- Applied phase at step k, by the phase manner. -/
def Ramp.phaseAt (r : Ramp) (k : Nat) (now : Nat) : Nat :=
  match r.manner with
  | .hold => now
  | .jump => r.endPhase
  | .arc => (roundDivInt ((r.startPhase : Int) * r.length + r.arc * k) r.length % 36000).toNat

/-- The applied phase of the last step: the end phase, or the phase held. -/
def Ramp.lastPhase (r : Ramp) (now : Nat) : Nat :=
  match r.manner with
  | .hold => now
  | .jump | .arc => r.endPhase

/-- The order a ramp leaves the tower in (R26). -/
def RampEnd.order : RampEnd → TowerOrder
  | .zero => .rest
  | .pattern k => .follow k

/-- Advance a tower's order by one frame (R22, R24, R26): its new values, and the end of a ramp that ended. -/
def Tower.advance (p : Pst) (t : TowerIx) (x : Tower) : Tower × Option RampEnd :=
  match x.order with
  | .rest => ({ x with amp := 0 }, none)
  | .follow k =>
    ({ x with amp := (patternValues p k t x.phase).1, phase := (patternValues p k t x.phase).2 }, none)
  | .ramp r =>
    if r.length ≤ r.step + 1 then
      ({ x with amp := r.endAmp, phase := r.lastPhase x.phase, order := r.target.order }, some r.target)
    else
      ({ x with amp := r.ampAt (r.step + 1), phase := r.phaseAt (r.step + 1) x.phase,
                order := .ramp { r with step := r.step + 1 } }, none)

/-! ## Drive frames (R22, R28) -/

/-- A product before its limit. -/
def rawSample (amp : Nat) (e : Word) : Nat := roundDiv (e.toNat * amp) 32768

/-- A drive sample (R28). -/
def driveSample (amp : Nat) (e : Word) : Word := word (min 65535 (rawSample amp e))

/-- The sample was limited. -/
def clips (amp : Nat) (e : Word) : Bool := 65535 < rawSample amp e

/-- Drive state from the order as it stands after the advance (R22). -/
def Tower.driveState (x : Tower) : DriveState :=
  if x.order.isRamp then .ramping else if x.amp = 0 then .idle else .driven

/-- The drive frame of a tower for these envelope samples. -/
def Tower.frame (x : Tower) (number : FrameNum) (reference : Word) (env : List Word) : DriveFrame :=
  { number := number, reference := reference, phase := x.phase, samples := env.map (driveSample x.amp),
    state := x.driveState, saturated := env.any (clips x.amp) }

/-- What one set of drive frames is built from. -/
structure FrameSource where
  number    : FrameNum
  reference : Word
  envelope  : List Word
deriving DecidableEq, Repr

/-- The tower advanced, with its drive frame at its port and its clip-noticed flag set if it clipped (R22, R29). -/
def Tower.drive (p : Pst) (t : TowerIx) (f : FrameSource) (x : Tower) : Tower :=
  let y := (x.advance p t).1
  { y with port := some (y.frame f.number f.reference f.envelope),
           clipNoticed := y.clipNoticed || f.envelope.any (clips y.amp) }

/-- The details of CLIPPING, when the frame clips a tower whose flag is clear (R29). -/
def Tower.clipNotice (p : Pst) (t : TowerIx) (f : FrameSource) (x : Tower) : Option (List Word) :=
  let y := (x.advance p t).1
  if y.clipNoticed then none
  else (f.envelope.find? (clips y.amp)).map fun e => [word (min 65535 y.amp), e]

/-- DSY after it has written one drive frame to each port. -/
def Dsy.write (d : Dsy) (p : Pst) (f : FrameSource) : Dsy :=
  { d with towers := Vector.ofFn fun t => d.towers[t].drive p t f, lastNumber := some f.number }

/-- The ramp-ended reports of that set of frames, in tower order (R26). -/
def Dsy.rampEnds (d : Dsy) (p : Pst) : List (TowerIx × RampEnd) :=
  allTowers.filterMap fun t => (d.towers[t].advance p t).2.map fun e => (t, e)

/-- CLIPPING for each tower that clips (R29). R29 and R171 give the notices of one frame no order; ascending towers is the
model's. DESIGN CHOICE, log 33. -/
def raiseClips (before : Dsy) (f : FrameSource) (s : State) : State :=
  allTowers.foldl (fun s t => match before.towers[t].clipNotice s.pst t f with
    | some details => s.raise .clipping (subjectOf t.val) details
    | none => s) s

/-- DSY writes one set of drive frames from the state as it stands. -/
def writeFrames (f : FrameSource) (s : State) : State :=
  raiseClips s.dsy f (s.setDsy (s.dsy.write s.pst f))

/-- The number after the last written, 0 when none was written (R30, R31, R37). -/
def Dsy.nextNumber (d : Dsy) : FrameNum :=
  match d.lastNumber with
  | none => 0
  | some n => n + 1

/-- A valid sample frame is a renumbering when its number is not one more than the last one written (R22). -/
def Dsy.renumbers (d : Dsy) (n : FrameNum) : Bool :=
  match d.lastNumber with
  | none => false
  | some m => n != m + 1

/-- What a failed or missed frame is built from: the number after the last written, the held reference and the held
envelope value for all 48 samples (R30). -/
def Dsy.heldSource (d : Dsy) : FrameSource :=
  { number := d.nextNumber, reference := d.heldReference, envelope := List.replicate 48 d.heldEnvelope }

/-- What a valid sample frame's drive frames are built from (R22). -/
def sampleSource (f : Sample) : FrameSource :=
  { number := f.number, reference := f.reference, envelope := f.envelope }

/-- DSY takes a valid sample frame: ring pace, and the held values replaced (R30, R32). -/
def Dsy.takeValid (d : Dsy) (f : Sample) : Dsy :=
  { d with heldEnvelope := f.envelope.getD 47 0, heldReference := f.reference, localPace := false,
           paceLeft := Config.missedQuarters }

/-! ## Ring loss (R31) -/

/-- DSY takes the LOST signal: every tower enters REST, and the local pace begins. -/
def Dsy.takeLost (d : Dsy) : Dsy :=
  { d.forceZero (BitVec.allOnes 8) with localPace := true, paceLeft := Config.paceQuarters }

/-- A tower's frame at the local pace: IDLE, amplitude zero, 48 samples of zero, phase unchanged. -/
def Tower.localFrame (number : FrameNum) (reference : Word) (x : Tower) : Tower :=
  { x with amp := 0,
           port := some { number := number, reference := reference, phase := x.phase, samples := List.replicate 48 0,
                          state := .idle, saturated := false } }

/-- DSY writes one set of frames at the local pace (R31). -/
def Dsy.writeLocal (d : Dsy) : Dsy :=
  { d with towers := d.towers.map (Tower.localFrame d.nextNumber d.heldReference), lastNumber := some d.nextNumber,
           paceLeft := Config.paceQuarters }

/-! ## RESTART (R38) and power-on (R37) -/

/-- DSY at RESTART: forced to zero, clip-noticed flags set, held envelope value 32768. -/
def Dsy.restart (d : Dsy) : Dsy :=
  { d with towers := (d.forceZero (BitVec.allOnes 8)).towers.map fun x => { x with clipNoticed := true },
           heldEnvelope := 32768 }

/-- A timer that starts at zero for a line that already differs from its state (R34, R36, R41). -/
def startIf (b : Bool) : Option Nat := if b then some 0 else none

/-- A debounce after its line shows a level: running on, or started, while the level differs; stopped otherwise (R36, R41). -/
def debounceStep (differs : Bool) (t : Option Nat) : Option Nat := if differs then some (t.getD 0) else none

/-- DSY after power-on with the input lines it finds (R34, R36, R37). -/
def Dsy.powerOn (d : Dsy) : Dsy :=
  { Dsy.reset with
    towers := d.towers.map fun x => { Tower.reset with rdyLine := x.rdyLine, debounce := startIf x.rdyLine }
    ilkLine := d.ilkLine
    ilkTimer := startIf d.ilkLine }

/-- A RDY line shows a level (R36). -/
def Dsy.rdyLevel (d : Dsy) (t : TowerIx) (level : Bool) : Dsy :=
  { d with towers := modifyAt d.towers t fun x =>
      { x with rdyLine := level, debounce := debounceStep (level != x.ready) x.debounce } }

end Sys2Proof.Machine
end

