-- ==== Sys2Proof/Machine/Requests.lean ====
section
/-! DEFINITION. Transition requests (04_pattern_transitions.md, 4.2): arming and withdrawing the Armed Request, the frame
checks of R60, the requests of the Schedule and Monitor Units (R62), and the history records (R80, R81). -/
namespace Sys2Proof.Machine

/-- The words of slot k as a record. -/
def State.recordOf (s : State) (k : Slot) : Nat → Word := s.pst.slotWord k

/-! ## Withdrawing (R61) -/

/-- Reasons of ARMED_WITHDRAWN, in the order of R61. -/
inductive WithdrawReason where
  | replaced | renumber | passed | halt | mute | ring | interlock
deriving DecidableEq, Repr

/-- Their codes (R176). -/
def WithdrawReason.code : WithdrawReason → Nat
  | .replaced => 1 | .renumber => 2 | .passed => 3 | .halt => 4 | .mute => 5 | .ring => 6 | .interlock => 7

/-- Remove the Armed Request, if one stands, with ARMED_WITHDRAWN (R61). -/
def withdraw (reason : WithdrawReason) (s : State) : State :=
  match s.txe.armed with
  | none => s
  | some a =>
    (s.setArmed none).raise .armedWithdrawn (subjectOf a.target.val)
      ([word reason.code] ++ twoWords a.frame ++ [word a.cause.code])

/-! ## Frame checks (R60 checks 5 and 6, R77) -/

/-- LATE when frame a is not ahead of the current frame by at least 2, FAR when it is more than 2^20 ahead; LATE when there
is no current frame number. -/
def frameCheck (current : Option FrameNum) (a : FrameNum) : Option OutcomeCode :=
  match current with
  | none => some .late
  | some c =>
    if aheadBy a c < 2 ∨ 2 ^ 31 ≤ aheadBy a c then some .late
    else if 2 ^ 20 < aheadBy a c then some .far
    else none

/-- The activation frame a request names, or the next frame; refused LATE or FAR (R60, R77). -/
def resolveFrame (current : Option FrameNum) : Option FrameNum → Except OutcomeCode FrameNum
  | some a => match frameCheck current a with
    | some o => .error o
    | none => .ok a
  | none => match current with
    | some c => .ok (c + 1)
    | none => .error .late

/-- BLEND is not permitted: the target does not permit it, or the active pattern does not (R60 check 4). -/
def blendBarred (s : State) (target : Slot) : Bool :=
  !recBlend (s.recordOf target) ||
    (match s.txe.array.activeSlot with
     | some p => !recBlend (s.recordOf p)
     | none => false)

/-! ## Requests of SCU and MON (R62) -/

/-- What TXE hands back. -/
inductive ReqAnswer where
  | armed (frame : FrameNum)
  | state (inFlight : Bool)
  | armedStands
  | interlock
  | notValid
  | alreadyActive
  | notPermitted
  | late
  | far
deriving DecidableEq, Repr

/-- The first of R62's conditions that fails, for a request in ACTIVE(p). `schedule` says that checks 4 to 6 of R60 apply. -/
def requestRefusal (s : State) (p target : Slot) (mode : ReqMode) (schedule : Bool) : Option ReqAnswer :=
  if s.txe.armed.isSome then some .armedStands
  else if s.dsy.ilkClosed = false then some .interlock
  else if s.pst.isValid target = false then some .notValid
  else if target = p then some .alreadyActive
  else if schedule = true ∧ mode = .blend ∧ blendBarred s target = true then some .notPermitted
  else none

/-- TXE takes a transition request of the Schedule Unit or the Monitor Unit (R62). -/
def request (target : Slot) (mode : ReqMode) (frame : Option FrameNum) (cause : Cause) (s : State) :
    State × ReqAnswer :=
  match s.txe.array with
  | .active p =>
    match requestRefusal s p target mode (cause == .schedule) with
    | some r => (s, r)
    | none =>
      match resolveFrame s.txe.frame frame with
      | .ok f =>
        (s.setArmed (some { target := target, mode := mode, frame := f, joint := none, down := none, up := none,
                            cause := cause }), .armed f)
      | .error o => (s, if o = .far then .far else .late)
  | .unset | .rampDown _ | .switching _ | .settle _ _ | .readyUp _ _ | .rampUp _ _ | .halted _ | .muting | .muted _ =>
    (s, .state s.txe.array.inFlight)

/-! ## History (R80, R81) -/

/-- Open a record: the next sequence value, outcome OPEN, no end frame, halt count 0; the oldest of 8 is removed. -/
def openRecord (cause : Cause) (source : Option Slot) (target : Slot) (mode : Mode) (joint : Bool) (start : FrameNum)
    (s : State) : State :=
  s.setTxe { s.txe with
    history := ({ seq := s.txe.seq, cause := cause, source := source, target := target, label := s.pst.label target,
                  mode := mode, joint := joint, start := start, endFrame := none, outcome := .opened,
                  halts := 0 } :: s.txe.history).take 8
    seq := s.txe.seq + 1 }

/-- Close the newest record, if it is OPEN (R81). -/
def closeNewest (o : HistOutcome) (frame : FrameNum) : List HistRecord → List HistRecord
  | [] => []
  | h :: hs => if h.outcome = .opened then { h with outcome := o, endFrame := some frame } :: hs else h :: hs

/-- The same on the state. -/
def closeRecord (o : HistOutcome) (frame : FrameNum) (s : State) : State :=
  s.setHistory (closeNewest o frame s.txe.history)

/-- One more halt of the newest record, reopened if it had closed (R85 step 6, R89); the count stops at 255. -/
def countHalt : List HistRecord → List HistRecord
  | [] => []
  | h :: hs => { h with outcome := .opened, endFrame := none, halts := min 255 (h.halts + 1) } :: hs

/-- The current frame number as the end or start frame of a record; a record exists only once there is one (R57, R60). -/
def Txe.now (x : Txe) : FrameNum := x.frame.getD 0

end Sys2Proof.Machine
end

