-- ==== Sys2Proof/Machine/Tells.lean ====
section
/-! DEFINITION. What the Monitor Unit and the Schedule Unit do when the Transition Engine tells them of a change of array state
(R108, R132), with the outcome of a schedule entry (R129 to R131). -/
namespace Sys2Proof.Machine

/-! ## Monitor Unit (R108) -/

/-- Entry to ACTIVE(p): statuses, counts and limit flags reset, hold-off started; a hold-off of 0 expires as it is started
(R108, R109). -/
def Mon.enterActive (m : Mon) (p : Slot) (towers : TowerSet) (holdOff : Nat) : Mon :=
  { m with
    active := some p
    towers := Vector.ofFn fun t =>
      { status := if has towers t then .held else .notInPattern, count := 0, limitNoticed := false }
    holdOff := if holdOff = 0 then none else some 0 }

/-- Leaving ACTIVE: every tower HELD with out count 0, the hold-off discarded (R108). -/
def Mon.leaveActive (m : Mon) : Mon :=
  { m with active := none, towers := m.towers.map fun x => { x with status := .held, count := 0 }, holdOff := none }

/-- A transition started: leaving ACTIVE, and the fallback-spent flag cleared by COMMAND and SCHEDULE (R108, R115). -/
def Mon.started (m : Mon) (cause : Cause) : Mon :=
  { m.leaveActive with spent := if cause = .command ∨ cause = .schedule then false else m.spent }

/-! ## Dates (R122, R176) -/

/-- February has 29 days in a year divisible by 4. -/
def isLeap (year : Nat) : Bool := year % 4 == 0

/-- Length of a month. -/
def monthLength (year month : Nat) : Nat :=
  if month = 2 then (if isLeap year then 29 else 28)
  else if month = 4 ∨ month = 6 ∨ month = 9 ∨ month = 11 then 30
  else 31

/-- The calendar date after d. -/
def Date.next (d : Date) : Date :=
  if d.day < monthLength d.year d.month then { d with day := d.day + 1 }
  else if d.month < 12 then { year := d.year, month := d.month + 1, day := 1 }
  else { year := d.year + 1, month := 1, day := 1 }

/-- Days of the months of a year before month m. -/
def daysBefore (year m : Nat) : Nat := ((List.range (m - 1)).map fun k => monthLength year (k + 1)).foldl (· + ·) 0

/-- Count of days since 1 January 2000 (R176). -/
def Date.days (d : Date) : Nat :=
  365 * (d.year - 2000) + (d.year - 2000 + 3) / 4 + daysBefore d.year d.month + (d.day - 1)

/-- A timestamp: seconds since 00:00:00 on 1 January 2000 (R176). -/
def timestamp (d : Date) (second : Nat) : BitVec 32 := BitVec.ofNat 32 (d.days * 86400 + second)

/-! ## Outcomes of schedule entries (R129, R130) -/

/-- Outcome codes of SCHEDULE_DUE (11.3). -/
inductive DueOutcome where
  | armed | alreadyActive | notValid | notPermitted | deferred | missed
deriving DecidableEq, Repr

/-- Their codes. -/
def DueOutcome.code : DueOutcome → Nat
  | .armed => 1 | .alreadyActive => 2 | .notValid => 3 | .notPermitted => 4 | .deferred => 5 | .missed => 6

/-- Reason codes of SCHEDULE_DUE (11.3). -/
inductive DueReason where
  | none | armed | inFlight | state | interlock | late | far | earlier | hold | table | replaced | discarded | dropped
deriving DecidableEq, Repr

/-- Their codes. -/
def DueReason.code : DueReason → Nat
  | .none => 0 | .armed => 1 | .inFlight => 2 | .state => 3 | .interlock => 4 | .late => 5 | .far => 6 | .earlier => 7
  | .hold => 8 | .table => 9 | .replaced => 10 | .discarded => 11 | .dropped => 12

/-- The outcome and reason an answer of TXE gives (R129). -/
def dueOf : ReqAnswer → DueOutcome × DueReason
  | .armed _ => (.armed, .none)
  | .alreadyActive => (.alreadyActive, .none)
  | .notValid => (.notValid, .none)
  | .notPermitted => (.notPermitted, .none)
  | .armedStands => (.deferred, .armed)
  | .state inFlight => if inFlight then (.deferred, .inFlight) else (.missed, .state)
  | .interlock => (.missed, .interlock)
  | .late => (.missed, .late)
  | .far => (.missed, .far)

/-- The entry fires (R129). -/
def DueOutcome.fires : DueOutcome → Bool
  | .armed | .alreadyActive => true
  | .notValid | .notPermitted | .deferred | .missed => false

/-- The target slot of an entry of the live table, 255 when the table has no such entry. -/
def Scu.targetByte (u : Scu) (e : EntryIx) : Nat := slotByte (u.table[e].map (·.target))

/-- SCHEDULE_DUE for an occurrence, with the activation frame for ARMED and the occurrence date otherwise (R130, 11.3). -/
def raiseDue (o : Occurrence) (outcome : DueOutcome) (reason : DueReason) (frame : Option FrameNum) (s : State) : State :=
  s.raise .scheduleDue (subjectOf o.entry.val)
    ([word (outcome.code + 256 * reason.code), word (s.scu.targetByte o.entry)]
      ++ (match frame with
          | some f => twoWords f
          | none => [word o.date.days, 0]))

/-- An occurrence fires: the last-fired date of its entry is set (R130). That a deferred entry of the same occurrence is removed,
and without a notice, is the model's: no rule names it, and it keeps the entry to one firing per date. DESIGN CHOICE, log 38. -/
def Scu.fire (u : Scu) (o : Occurrence) : Scu :=
  { u with
    table := modifyAt u.table o.entry fun e => e.map fun x => { x with lastFired := some o.date }
    deferred := if u.deferred = some o then none else u.deferred }

/-- The entry becomes the deferred entry; an older one of another occurrence is discarded with MISSED, REPLACED (R131). -/
def defer (o : Occurrence) (s : State) : State :=
  let s1 := match s.scu.deferred with
    | some d => if d = o then s else raiseDue d .missed .replaced none s
    | none => s
  s1.setScu { s1.scu with deferred := some o }

/-- What SCU does with the answer to a request for an occurrence (R129 to R131). -/
def settleDue (o : Occurrence) (a : ReqAnswer) (s : State) : State :=
  let s1 := if (dueOf a).1 = .deferred then defer o s else s
  let s2 := if (dueOf a).1.fires then s1.setScu (s1.scu.fire o) else s1
  raiseDue o (dueOf a).1 (dueOf a).2 (match a with
    | .armed f => some f
    | _ => none) s2

/-- SCU hands TXE the request of an occurrence, at an activation frame or at the next frame, and settles it (R129, R132,
R134). -/
def actOn (o : Occurrence) (frame : Option FrameNum) (s : State) : State :=
  match s.scu.table[o.entry] with
  | none => s
  | some e =>
    settleDue o (request e.target e.mode frame .schedule s).2 (request e.target e.mode frame .schedule s).1

/-- Entry to ACTIVE: the deferred entry is removed and offered again at the next frame (R132). That TXE takes the request in
the step of the entry, with no command or frame event between, is the model's. DESIGN CHOICE, log 41. -/
def offerDeferred (s : State) : State :=
  match s.scu.deferred with
  | none => s
  | some o => actOn o none (s.setScu { s.scu with deferred := none })

/-- Entry to HALTED or MUTED: the deferred entry is discarded with MISSED, DISCARDED (R132). -/
def discardDeferred (s : State) : State :=
  match s.scu.deferred with
  | none => s
  | some o => raiseDue o .missed .discarded none (s.setScu { s.scu with deferred := none })

/-! ## What TXE tells both -/

/-- The array has entered ACTIVE(p) (R74 step 6): MON and SCU take the report in the step of the completion itself, and SCU's
request on it is taken there too (R132). DESIGN CHOICE, log 41. -/
def tellActive (p : Slot) (s : State) : State :=
  offerDeferred (s.setMon (s.mon.enterActive p (recTowers (s.recordOf p)) (recHoldOff (s.recordOf p))))

/-- A transition has started with this cause (R65 step 7). -/
def tellStarted (cause : Cause) (s : State) : State := s.setMon (s.mon.started cause)

/-- The array has left ACTIVE into MUTING, or a phase has been muted (R95 to R97): SCU does nothing on it. -/
def tellLeft (s : State) : State := s.setMon s.mon.leaveActive

/-- The array has entered HALTED or MUTED (R85 step 10, R99). -/
def tellStopped (s : State) : State := discardDeferred (s.setMon s.mon.leaveActive)

end Sys2Proof.Machine
end

