-- ==== Sys2Proof/Machine/Contactors.lean ====
section
/-! DEFINITION. The Contactor Unit (03_contactors.md): move requests, the guard, what a reading does to a contactor, debounces,
and the replacement of the Contactor Table. The reports it hands TXE are taken in Machine/Transitions.lean. -/
namespace Sys2Proof.Machine

/-- Replace the entry of contactor c. -/
def Ctu.setEntry (u : Ctu) (c : ContactorIx) (e : Option Contactor) : Ctu :=
  { u with units := modifyAt u.units c fun x => { x with entry := e } }

/-- The state with contactor c's entry replaced. -/
def State.setContactor (s : State) (c : ContactorIx) (e : Contactor) : State := s.setCtu (s.ctu.setEntry c (some e))

/-- The state of contactor c, if it is defined. -/
def Ctu.stateOf (u : Ctu) (c : ContactorIx) : Option ContactorState := u.units[c].entry.map (·.state)

/-! ## Move requests (R43, R44) -/

/-- What CTU answers a move request with; DONE says whether the contactor was confirmed at the take. -/
inductive MoveAnswer where
  | notValid
  | done (confirmed : Bool)
  | started
  | interlock
deriving DecidableEq, Repr

/-- A fresh travel toward a position. -/
def travelFrom : Position → ContactorState
  | .opened => .toOpen 0
  | .closed => .toClosed 0

/-- CONTACTOR_CONFIRMED: position reached, travel time, travel limit (R45). -/
def raiseConfirmed (c : ContactorIx) (p : Position) (travel limit : Nat) (s : State) : State :=
  s.raise .contactorConfirmed (subjectOf c.val) [word p.code, word travel, word limit]

/-- CTU takes a move request (R43). -/
def moveRequest (c : ContactorIx) (p : Position) (s : State) : State × MoveAnswer :=
  match s.ctu.units[c].entry with
  | none => (s, .notValid)
  | some e =>
    if e.state.standsAt p then (s, .done false)
    else if e.state.travelsTo p then (s, .started)
    else if s.dsy.restIn e.assoc.towers = false then (s, .interlock)
    else if s.ctu.units[c].reading.agrees p then
      (raiseConfirmed c p 0 e.limit (s.setContactor c { e with commanded := p, state := standing p }), .done true)
    else (s.setContactor c { e with commanded := p, state := travelFrom p }, .started)

/-! ## Guard (R49) -/

/-- The requirement list of slot k names contactor c. -/
def requires (s : State) (k : Slot) (c : ContactorIx) : Bool :=
  (recRequirements (s.recordOf k)).any fun r => r.1 == c

/-- An entry of c to DISAGREE is drift: the guard names a slot whose list names c. -/
def isDrift (s : State) (c : ContactorIx) : Bool :=
  match s.ctu.guard with
  | some k => requires s k c
  | none => false

/-- CTU takes a guard order. -/
def setGuard (g : Option Slot) (s : State) : State := s.setCtu { s.ctu with guard := g }

/-- The contactors for which a guard order naming slot k makes CTU hand TXE a drift report at once: those of its list
already in DISAGREE. -/
def guardDrifts (s : State) (k : Slot) : List ContactorIx :=
  ((recRequirements (s.recordOf k)).map (·.1)).filter fun c => s.ctu.stateOf c == some .disagree

/-! ## Readings (R45, R47, R48) -/

/-- What CTU hands TXE for a contactor. -/
inductive CtuReport where
  | nothing
  | confirmed
  | agree
  | disagree (drift : Bool)
deriving DecidableEq, Repr

/-- CONTACTOR_DISAGREE: commanded position, reading, state left with drift in bit 15 (R47, 11.3). -/
def raiseDisagree (c : ContactorIx) (commanded : Position) (r : Reading) (left : Nat) (drift : Bool) (s : State) : State :=
  s.raise .contactorDisagree (subjectOf c.val) [word commanded.code, word r.code, word (left + flagBit drift 15)]

/-- The contactor enters DISAGREE (R47). -/
def enterDisagree (c : ContactorIx) (e : Contactor) (s : State) : State × CtuReport :=
  (raiseDisagree c e.commanded s.ctu.units[c].reading e.state.code (isDrift s c)
     (s.setContactor c { e with state := .disagree }), .disagree (isDrift s c))

/-- The state logic of a defined contactor takes a change of its reading (R45 to R48). -/
def takeReading (c : ContactorIx) (e : Contactor) (s : State) : State × CtuReport :=
  let r := s.ctu.units[c].reading
  match e.state with
  | .toOpen t | .toClosed t =>
    if r.agrees e.commanded then
      (raiseConfirmed c e.commanded t e.limit (s.setContactor c { e with state := standing e.commanded }), .confirmed)
    else if r = .both then enterDisagree c e s
    else (s, .nothing)
  | .opened | .closed => if r.agrees e.commanded then (s, .nothing) else enterDisagree c e s
  | .stuck => if r = .both then enterDisagree c e s else (s, .nothing)
  | .disagree =>
    if r.agrees e.commanded then
      ((s.setContactor c { e with state := standing e.commanded }).raise .contactorAgree (subjectOf c.val)
        [word e.commanded.code], .agree)
    else (s, .nothing)

/-! ## Debounces (R41) -/

/-- A raw auxiliary input shows a level. -/
def ContactorUnit.auxLevel (u : ContactorUnit) (i : AuxInput) (asserted : Bool) : ContactorUnit :=
  match i with
  | .showsOpen =>
    { u with openLine := asserted, openTimer := debounceStep (asserted != u.openShown) u.openTimer }
  | .showsClosed =>
    { u with closedLine := asserted, closedTimer := debounceStep (asserted != u.closedShown) u.closedTimer }

/-- The debounce of the input runs. -/
def ContactorUnit.debouncing (u : ContactorUnit) : AuxInput → Bool
  | .showsOpen => u.openTimer.isSome
  | .showsClosed => u.closedTimer.isSome

/-- The debounce of the input completes: the debounced level takes the raw level. -/
def ContactorUnit.debounced (u : ContactorUnit) (i : AuxInput) : ContactorUnit :=
  match i with
  | .showsOpen => { u with openShown := u.openLine, openTimer := none }
  | .showsClosed => { u with closedShown := u.closedLine, closedTimer := none }

/-- A contactor number after power-on with the inputs it finds (R41, R54). -/
def ContactorUnit.powerOn (u : ContactorUnit) : ContactorUnit :=
  { ContactorUnit.reset with
    openLine := u.openLine, closedLine := u.closedLine, openTimer := startIf u.openLine,
    closedTimer := startIf u.closedLine }

/-! ## Contactor Table (R39, R51 to R53) -/

/-- An entry of a staged table. -/
structure StagedContactor where
  number : Nat
  assoc  : Assoc
  limit  : Nat
deriving DecidableEq, Repr

/-- The association a word names: 255 for COMMON (11.4). -/
def assocOf (w : Word) : Assoc := if h : w.toNat < 8 then .tower ⟨w.toNat, h⟩ else .common

/-- The entries of a staged table. -/
def stagedContactors (w : Nat → Word) : List StagedContactor :=
  (List.range (min (w 0).toNat 24)).map fun j =>
    { number := (w (1 + 3 * j)).toNat, assoc := assocOf (w (2 + 3 * j)), limit := (w (3 + 3 * j)).toNat }

/-- The position a kept contactor is commanded to, or OPEN for a new one (R53). -/
def keptPosition : Option Contactor → Position
  | some e => e.commanded
  | none => .opened

/-- The entry of contactor c after the replacement: none when removed; otherwise the new association and limit, the commanded
position kept or OPEN, and the state derived from the present reading (R53). -/
def replacedEntry (u : ContactorUnit) (c : ContactorIx) (staged : List StagedContactor) : Option Contactor :=
  (staged.find? fun e => e.number == c.val).map fun e =>
    { assoc := e.assoc, limit := e.limit, commanded := keptPosition u.entry,
      state := if u.reading.agrees (keptPosition u.entry) then standing (keptPosition u.entry) else .disagree }

/-- The state a contactor's notice gives as left: 0 for a new one. -/
def leftCode : Option Contactor → Nat
  | some e => e.state.code
  | none => 0

/-- The staged table becomes the live one, and every contactor whose state is derived as DISAGREE raises its notice (R53).
R53 and R171 give those notices no order; ascending numbers is the model's. DESIGN CHOICE, log 33. -/
def replaceContactors (w : Nat → Word) (s : State) : State :=
  let old := s.ctu
  let new : Ctu := { old with units := Vector.ofFn fun c =>
    { old.units[c] with entry := replacedEntry old.units[c] c (stagedContactors w) } }
  allContactors.foldl (fun s c => match new.units[c].entry with
    | some e => if e.state = .disagree then
        raiseDisagree c e.commanded old.units[c].reading (leftCode old.units[c].entry) false s
      else s
    | none => s) (s.setCtu new)

/-- The words of the live table, ascending (R39). -/
def Ctu.tableWords (u : Ctu) : List Word :=
  let es := allContactors.filterMap fun c => u.units[c].entry.map fun e => (c, e)
  word es.length :: es.flatMap fun x =>
    [word x.1.val, (match x.2.assoc with
      | .tower t => word t.val
      | .common => 255), word x.2.limit]

/-- The staged table defines contactor c: entry j names it, for some j below both the count word and 24 (R145). -/
def definedIn (w : Nat → Word) (c : ContactorIx) : Bool :=
  (List.range (min (w 0).toNat 24)).any fun j => w (1 + 3 * j) == word c.val

/-- The lowest VALID slot whose list names a contactor the staged table does not define, with the first such contactor
(R52). -/
def missingReference (w : Nat → Word) (s : State) : Option (Slot × ContactorIx) :=
  allSlots.findSome? fun k =>
    if s.pst.isValid k then
      ((recRequirements (s.recordOf k)).find? fun r => !definedIn w r.1).map fun r => (k, r.1)
    else none

/-- The array state and the towers allow a replacement: UNSET or MUTED, every tower at rest (R52). -/
def replacementAllowed (s : State) : Bool :=
  (match s.txe.array with
   | .unset => true
   | .muted _ => true
   | .active _ | .rampDown _ | .switching _ | .settle _ _ | .readyUp _ _ | .rampUp _ _ | .halted _ | .muting => false)
  && s.dsy.allAtRest

end Sys2Proof.Machine
end

