-- ==== Sys2Proof/Machine/Transitions.lean ====
section
/-! DEFINITION. The Transition Engine (04_pattern_transitions.md, 05_halts_muting_and_recovery.md): halting, the phases of a
transition, its start and completion, frame events, muting, ring loss and regain, the interlock, and the reports it takes. -/
namespace Sys2Proof.Machine

/-! ## The sets of a transition (R66, R67) -/

/-- The contactor of a requirement does not stand at the required position. -/
def unsettledReq (s : State) (r : ContactorIx × Position) : Bool :=
  match s.ctu.stateOf r.1 with
  | some st => !st.standsAt r.2
  | none => false

/-- It is unsettled and not already travelling the right way. -/
def movingReq (s : State) (r : ContactorIx × Position) : Bool :=
  match s.ctu.stateOf r.1 with
  | some st => !st.standsAt r.2 && !st.travelsTo r.2
  | none => false

/-- The towers associated with contactor c. -/
def assocTowers (s : State) (c : ContactorIx) : TowerSet :=
  match s.ctu.units[c].entry with
  | some e => e.assoc.towers
  | none => 0

/-- The contactors of target k's list that satisfy a test. -/
def reqSet (s : State) (k : Slot) (p : ContactorIx × Position → Bool) : ContactorSet :=
  ((recRequirements (s.recordOf k)).filter p).foldl (fun m r => insertIx m r.1) 0

/-- The switched towers: those associated with an unsettled contactor of target k's list. -/
def switchedTowers (s : State) (k : Slot) : TowerSet :=
  ((recRequirements (s.recordOf k)).filter (unsettledReq s)).foldl (fun m r => m ||| assocTowers s r.1) 0

/-- The blend towers: under BLEND, those in both tower sets that are not switched (R67). -/
def blendTowers (s : State) (mode : Mode) (source : Option Slot) (target : Slot) : TowerSet :=
  match mode, source with
  | .blend, some p =>
    recTowers (s.recordOf p) &&& recTowers (s.recordOf target) &&& ~~~(switchedTowers s target)
  | .blend, none => 0
  | .fullMute, _ => 0

/-- A transition context with its sets computed as the contactors stand now; nothing awaited (R65, R66). -/
def formContext (s : State) (cause : Cause) (source : Option Slot) (target : Slot) (mode : Mode) (joint : Option Nat)
    (downLen upLen : Nat) (blend : TowerSet) : TxContext :=
  { cause := cause, source := source, target := target, mode := mode, joint := joint, downLen := downLen, upLen := upLen,
    moving := reqSet s target (movingReq s), unsettled := reqSet s target (unsettledReq s),
    switched := switchedTowers s target, blend := blend, awaited := 0, moved := false }

/-! ## Halting (R83 to R86) -/

/-- What the halt context takes over from the array state: its step and the fields of the transition context, or those of R89
in ACTIVE(p). -/
structure HaltView where
  step   : HaltedStep
  cause  : Cause
  source : Option Slot
  target : Slot
  mode   : Mode
  joint  : Option Nat
  upLen  : Nat
deriving DecidableEq, Repr

/-- The view of a phase. -/
def viewOf (step : HaltedStep) (c : TxContext) : HaltView :=
  { step := step, cause := c.cause, source := c.source, target := c.target, mode := c.mode, joint := c.joint,
    upLen := c.upLen }

/-- The cause of the newest history record (R89). -/
def Txe.newestCause (x : Txe) : Cause := (x.history.head?.map (·.cause)).getD .command

/-- The states a halt is taken in (R83). -/
def haltView (s : State) : Option HaltView :=
  match s.txe.array with
  | .active p => some { step := .active, cause := s.txe.newestCause, source := none, target := p, mode := .fullMute,
                        joint := none, upLen := recUp (s.recordOf p) }
  | .rampDown c => some (viewOf .rampDown c)
  | .switching c => some (viewOf .switching c)
  | .settle c _ => some (viewOf .settle c)
  | .readyUp c _ => some (viewOf .readyUp c)
  | .rampUp c _ => some (viewOf .rampUp c)
  | .unset | .halted _ | .muting | .muted _ => none

/-- TX_AT_REST, once per entry to HALTED (R88). -/
def noteAtRest (h : HaltContext) (s : State) : State :=
  (s.setArray (.halted { h with restNoticed := true })).raise .txAtRest (subjectOf h.target.val) [h.seq]

/-- The drive orders of a halt (R86): none for RING and INTERLOCK; otherwise the standard mute ramp to every tower that is not
in REST, the towers of a DRIFT being in REST already. -/
def haltOrders (reason : HaltReason) (d : Dsy) : Dsy :=
  match reason with
  | .ring | .interlock => d
  | .stuck | .drift | .cabinet | .gate => d.rampDownAll Config.muteRamp 0

/-- The halt context formed (R84). -/
def formHalt (reason : HaltReason) (subject : HaltSubject) (v : HaltView) (seq : BitVec 16) : HaltContext :=
  { reason := reason, step := v.step, subject := subject, cause := v.cause, source := v.source, target := v.target,
    mode := v.mode, joint := v.joint, upLen := v.upLen, seq := seq, restNoticed := false }

/-- TX_AT_REST at the entry to HALTED, if every tower is at rest (R85 step 9). -/
def restAtEntry (h : HaltContext) (s : State) : State := if s.dsy.allAtRest then noteAtRest h s else s

/-- TXE halts the array (R85), in the order of its steps. A state a halt is not taken in is left as it is. -/
def halt (reason : HaltReason) (subject : HaltSubject) (s : State) : State :=
  match haltView s with
  | none => s
  | some v =>
    let s1 := setGuard none (withdraw .halt s)
    let s2 := s1.setDsy (haltOrders reason s1.dsy)
    let s3 := s2.setHistory (countHalt s2.txe.history)
    let h := formHalt reason subject v s3.txe.newestSeq
    let s4 := (s3.setArray (.halted h)).raise .txHalted (subjectOf v.target.val)
      [word reason.code, word v.step.code, word subject.byte, h.seq]
    tellStopped (restAtEntry h s4)

/-- The states in which TXE acts on a drift report (R75, R89). -/
def takesDrift : ArrayState → Bool
  | .active _ | .settle _ _ | .readyUp _ _ | .rampUp _ _ => true
  | .unset | .rampDown _ | .switching _ | .halted _ | .muting | .muted _ => false

/-- TXE takes a disagree report marked drift: the contactor's towers are forced to zero, and the array halts (R89). -/
def takeDrift (c : ContactorIx) (s : State) : State :=
  if takesDrift s.txe.array then
    halt .drift (.contactor c) (s.setDsy (s.dsy.forceZero (assocTowers s c)))
  else s

/-! ## RAMP_UP, READY_UP, SETTLE (R72, R73, R76) -/

/-- The lowest-numbered tower of the target's set whose cabinet is NOT_READY (R73). -/
def firstNotReady (s : State) (target : Slot) : Option TowerIx :=
  allTowers.find? fun t => has (recTowers (s.recordOf target)) t && !s.dsy.towers[t].ready

/-- RAMP_UP start: the cabinet test, then the ramp orders to the target (R73). -/
def startRampUp (c : TxContext) (s : State) : State :=
  match firstNotReady s c.target with
  | some t => halt .cabinet (.tower t) (s.setArray (.rampUp c 0))
  | none =>
    (s.setArray (.rampUp c 0)).setDsy
      (s.dsy.rampUpAll s.pst c.target c.upLen (recTowers (s.recordOf c.target)))

/-- READY_UP awaiting GO, with a fresh gate timer and TX_READY_UP (R76, R77). -/
def enterReadyUp (c : TxContext) (gateMs : Nat) (s : State) : State :=
  (s.setArray (.readyUp c (.awaiting 0))).raise .txReadyUp (subjectOf c.target.val) [s.txe.newestSeq, word gateMs]

/-- After SETTLE, or where it is passed by: READY_UP if joint, RAMP_UP if not (R71, R72). -/
def afterSettle (c : TxContext) (s : State) : State :=
  match c.joint with
  | some g => enterReadyUp c g s
  | none => startRampUp c s

/-- SETTLE; a settle time of 0 expires as it is started (R72). -/
def enterSettle (c : TxContext) (s : State) : State :=
  if recSettle (s.recordOf c.target) = 0 then afterSettle c (s.setArray (.settle c 0)) else s.setArray (.settle c 0)

/-! ## SWITCHING (R70, R71) -/

/-- Both conditions of R71 for leaving SWITCHING. -/
def switchingDone (c : TxContext) (s : State) : Bool :=
  ((recRequirements (s.recordOf c.target)).all fun r => match s.ctu.stateOf r.1 with
    | some st => st.standsAt r.2
    | none => false)
  && (allContactors.all fun k => match s.ctu.units[k].entry with
    | some e => e.state.travel.isNone
        || (e.assoc.towers &&& recTowers (s.recordOf c.target) &&& ~~~c.blend) == 0
    | none => true)

/-- TXE leaves SWITCHING: the guard names the target; SETTLE if a contactor moved, otherwise on at once. The drift reports the
guard order would give are taken after it; the exit's first condition leaves none to give (R49, R71; log 26). -/
def leaveSwitching (c : TxContext) (s : State) : State :=
  let s1 := setGuard (some c.target) s
  (guardDrifts s1 c.target).foldl (fun s k => takeDrift k s) (if c.moved then enterSettle c s1 else afterSettle c s1)

/-- TXE judges the exit of SWITCHING (R71). -/
def judgeSwitching (s : State) : State :=
  match s.txe.array with
  | .switching c => if switchingDone c s then leaveSwitching c s else s
  | .unset | .active _ | .rampDown _ | .settle _ _ | .readyUp _ _ | .rampUp _ _ | .halted _ | .muting | .muted _ => s

/-- A contactor awaited: it is in travel toward its position (R70). -/
def TxContext.await (c : TxContext) (k : ContactorIx) : TxContext :=
  { c with awaited := insertIx c.awaited k, moved := true }

/-- The move requests of SWITCHING; an INTERLOCK answer stops them and names its contactor (R70). R70 and R91 give the requests
no order; that of the requirement list is the model's. DESIGN CHOICE, log 34. -/
def giveMoves : List (ContactorIx × Position) → TxContext → State → TxContext × State × Option ContactorIx
  | [], c, s => (c, s, none)
  | (k, p) :: rs, c, s =>
    match s.ctu.stateOf k with
    | none => giveMoves rs c s
    | some st =>
      if st.standsAt p then giveMoves rs c s
      else if st.travelsTo p then giveMoves rs (c.await k) s
      else match (moveRequest k p s).2 with
        | .started => giveMoves rs (c.await k) (moveRequest k p s).1
        | .done confirmed => giveMoves rs { c with moved := c.moved || confirmed } (moveRequest k p s).1
        | .interlock => (c, s, some k)
        | .notValid => giveMoves rs c s

/-- TXE enters SWITCHING and gives its move requests; blocked by a tower not at rest it halts with STUCK (R70); then the exit
is judged (R71). -/
def enterSwitching (c : TxContext) (s : State) : State :=
  let r := giveMoves (recRequirements (s.recordOf c.target)) { c with awaited := 0, moved := false } s
  let s1 := r.2.1.setArray (.switching r.1)
  match r.2.2 with
  | some k => halt .stuck (.contactor k) s1
  | none => judgeSwitching s1

/-! ## RAMP_DOWN and the start of a transition (R65, R68, R69) -/

/-- TXE enters RAMP_DOWN and gives its orders, and passes at once to SWITCHING when every tower that is not a blend tower is at
rest (R68). -/
def enterRampDown (c : TxContext) (s : State) : State :=
  let s1 := (s.setArray (.rampDown c)).setDsy (s.dsy.rampDownAll c.downLen c.blend)
  if s1.dsy.restIn (~~~c.blend) then enterSwitching c s1 else s1

/-- TX_STARTED: sequence, cause, source, mode (R65, R92, R102). -/
def raiseStarted (c : TxContext) (seq : BitVec 16) (s : State) : State :=
  s.raise .txStarted (subjectOf c.target.val) [seq, word c.cause.code, word (slotByte c.source), word c.mode.code]

/-- The steps that every start has in common: a history record, the guard NONE, RAMP_DOWN, TX_STARTED, the report (R65, R92,
R102; their order: log 10). -/
def launch (c : TxContext) (start : FrameNum) (s : State) : State :=
  let s1 := setGuard none (openRecord c.cause c.source c.target c.mode c.joint.isSome start s)
  tellStarted c.cause (raiseStarted c s.txe.seq (enterRampDown c s1))

/-- The resolved mode (R65): BLEND when named (by the request or by the target's default), a source is present and both
permit blend. -/
def resolveMode (s : State) (mode : ReqMode) (source : Option Slot) (target : Slot) : Mode :=
  let named := if mode = .default then recMode (s.recordOf target) else mode
  match source with
  | some p => if named = .blend ∧ recBlend (s.recordOf p) = true ∧ recBlend (s.recordOf target) = true then .blend
              else .fullMute
  | none => .fullMute

/-- The ramp-down length: the override, the source's, or the standard mute ramp (R65). -/
def downLength (s : State) (override : Option Nat) (source : Option Slot) : Nat :=
  match override, source with
  | some l, _ => l
  | none, some p => recDown (s.recordOf p)
  | none, none => Config.muteRamp

/-- The context of the transition an Armed Request starts (R65). -/
def armedContext (s : State) (a : Armed) : TxContext :=
  let source := s.txe.array.activeSlot
  let mode := resolveMode s a.mode source a.target
  formContext s a.cause source a.target mode a.joint (downLength s a.down source)
    (a.up.getD (recUp (s.recordOf a.target))) (blendTowers s mode source a.target)

/-- From HALTED the halted record closes ABANDONED, with the start frame as its end frame (R65 step 2). -/
def abandonHalted (start : FrameNum) (s : State) : State :=
  match s.txe.array with
  | .halted _ => closeRecord .abandoned start s
  | .unset | .active _ | .rampDown _ | .switching _ | .settle _ _ | .readyUp _ _ | .rampUp _ _ | .muting | .muted _ => s

/-- The armed transition starts at its activation frame (R65). -/
def startArmed (a : Armed) (start : FrameNum) (s : State) : State :=
  launch (armedContext s a) start (abandonHalted start (s.setArmed none))

/-- A transition with no source, to the pattern of slot k at its own ramp-up length: RESUME and RETREAT (R92, R102). -/
def plainContext (s : State) (cause : Cause) (k : Slot) : TxContext :=
  formContext s cause none k .fullMute none Config.muteRamp (recUp (s.recordOf k)) 0

/-! ## Completion (R74) -/

/-- TX_COMPLETED carries the sequence, the start frame and the label of the record (R74, 11.3). -/
def raiseCompleted (target : Slot) (s : State) : State :=
  match s.txe.history with
  | [] => s
  | h :: _ => s.enter (.notice .txCompleted s.stamp (subjectOf target.val) (some h.label)
      ([h.seq] ++ twoWords h.start
        ++ [(labelChar h.label 0).setWidth 16 <<< 8 ||| (labelChar h.label 1).setWidth 16]))

/-- The transition is complete: ACTIVE(target), the record closed, the clip flags cleared, TX_COMPLETED, the reports (R74). -/
def complete (c : TxContext) (s : State) : State :=
  let s1 := closeRecord .completed s.txe.now (s.setArray (.active c.target))
  tellActive c.target (raiseCompleted c.target (s1.setDsy s1.dsy.clearClips))

/-- TXE takes the ramp-ended reports of one frame (R74, R75). -/
def takeRampEnds (ends : List (TowerIx × RampEnd)) (s : State) : State :=
  match s.txe.array with
  | .rampUp c ended =>
    let ended' := ends.foldl (fun m x => if x.2 = .pattern c.target then insertIx m x.1 else m) ended
    if (recTowers (s.recordOf c.target) &&& ~~~ended') = 0 then complete c s else s.setArray (.rampUp c ended')
  | .unset | .active _ | .rampDown _ | .switching _ | .settle _ _ | .readyUp _ _ | .halted _ | .muting | .muted _ => s

/-! ## MUTED (R98, R99) -/

/-- Causes of the entry to MUTED, in the order of R99. -/
inductive MutedCause where
  | command | ring | interlock
deriving DecidableEq, Repr

/-- Their codes (R176). -/
def MutedCause.code : MutedCause → Nat
  | .command => 1 | .ring => 2 | .interlock => 3

/-- TXE enters MUTED: the notice MUTED, then the reports (R99). -/
def enterMuted (cause : MutedCause) (resume : Option Slot) (s : State) : State :=
  tellStopped ((s.setArray (.muted resume)).raise .muted (resume.map fun p => BitVec.ofNat 8 p.val) [word cause.code])

/-- TXE takes the at-rest changes the drive frames gave (R69, R75, R88, R98). -/
def takeAtRest (s : State) : State :=
  match s.txe.array with
  | .rampDown c => if s.dsy.restIn (~~~c.blend) then enterSwitching c s else s
  | .muting => if s.dsy.allAtRest then enterMuted .command none s else s
  | .halted h => if h.restNoticed = false ∧ s.dsy.allAtRest = true then noteAtRest h s else s
  | .unset | .active _ | .switching _ | .settle _ _ | .readyUp _ _ | .rampUp _ _ | .muted _ => s

/-! ## Frame events (R64, R77) -/

/-- A frame event with an Armed Request standing (R64). -/
def examineArmed (a : Armed) (number : FrameNum) (renumbering : Bool) (s : State) : State :=
  if renumbering then withdraw .renumber s
  else if number = a.frame then startArmed a number s
  else if isAhead a.frame number then s
  else withdraw .passed s

/-- A frame event with GO taken: RAMP_UP at the GO activation frame; a renumbering or a passed frame discards the GO and
awaits a new one with the full gate timeout (R77). -/
def examineGo (c : TxContext) (f number : FrameNum) (renumbering : Bool) (s : State) : State :=
  if renumbering = false ∧ number = f then startRampUp c s
  else if renumbering = false ∧ isAhead f number = true then s
  else enterReadyUp c (c.joint.getD 0) s

/-- TXE takes a frame event: its number becomes the current frame number, and the Armed Request or the GO is examined
(R64). -/
def frameEvent (number : FrameNum) (renumbering : Bool) (s : State) : State :=
  let s1 := s.setTxe { s.txe with frame := some number }
  match s1.txe.armed with
  | some a => examineArmed a number renumbering s1
  | none =>
    match s1.txe.array with
    | .readyUp c (.taken f) => examineGo c f number renumbering s1
    | .readyUp _ (.awaiting _) | .unset | .active _ | .rampDown _ | .switching _ | .settle _ _ | .rampUp _ _ | .halted _
    | .muting | .muted _ => s1

/-- One frame at the ring pace: the frame event, then DSY's drive frames, then the reports they give (R22, R64, R27). All eight
frames with their CLIPPING precede the reports, so CLIPPING of the frame that ends the last ramp precedes the completion that
clears the clip flags (R74), which the spec does not order. DESIGN CHOICE, log 35. -/
def ringFrame (f : FrameSource) (renumbering : Bool) (s : State) : State :=
  let s1 := frameEvent f.number renumbering s
  takeRampEnds (s1.dsy.rampEnds s1.pst) (takeAtRest (writeFrames f s1))

/-! ## Reports of CTU and DSY (R75) -/

/-- A contactor leaves the awaited set (R71). -/
def TxContext.settle (c : TxContext) (k : ContactorIx) : TxContext := { c with awaited := removeIx c.awaited k }

/-- The awaited set without contactor k, in SWITCHING. -/
def unawait (k : ContactorIx) (s : State) : State :=
  match s.txe.array with
  | .switching c => s.setArray (.switching (c.settle k))
  | .unset | .active _ | .rampDown _ | .settle _ _ | .readyUp _ _ | .rampUp _ _ | .halted _ | .muting | .muted _ => s

/-- TXE takes a report of CTU for contactor k (R71, R75, R89). -/
def takeReport (k : ContactorIx) (r : CtuReport) (s : State) : State :=
  match r with
  | .nothing => s
  | .confirmed => judgeSwitching (unawait k s)
  | .agree => judgeSwitching (unawait k s)
  | .disagree drift => if drift then takeDrift k s else judgeSwitching s

/-- TXE takes a stuck report: in SWITCHING it halts, elsewhere it is a notice only (R75, R83). -/
def takeStuck (k : ContactorIx) (s : State) : State :=
  match s.txe.array with
  | .switching _ => halt .stuck (.contactor k) s
  | .unset | .active _ | .rampDown _ | .settle _ _ | .readyUp _ _ | .rampUp _ _ | .halted _ | .muting | .muted _ => s

/-- TXE takes a cabinet's change to NOT_READY: in RAMP_UP a tower of the target's set halts the transition (R74, R75). -/
def takeCabinetLoss (t : TowerIx) (s : State) : State :=
  match s.txe.array with
  | .rampUp c _ => if has (recTowers (s.recordOf c.target)) t then halt .cabinet (.tower t) s else s
  | .unset | .active _ | .rampDown _ | .switching _ | .settle _ _ | .readyUp _ _ | .halted _ | .muting | .muted _ => s

/-! ## Ring loss and regain (R100, R102) -/

/-- TXE takes the LOST signal (R100). -/
def takeLost (s : State) : State :=
  match s.txe.array with
  | .active p => enterMuted .ring (some p) (setGuard none (withdraw .ring s))
  | .rampDown _ | .switching _ | .settle _ _ | .readyUp _ _ | .rampUp _ _ => halt .ring .none s
  | .muting => enterMuted .ring none s
  | .unset | .muted _ | .halted _ => s

/-- TXE takes the regain signal: in MUTED with a resume pattern it starts a RESUME transition (R102). -/
def takeRegain (s : State) : State :=
  match s.txe.array with
  | .muted (some p) =>
    launch (plainContext s .resume p) s.txe.now (s.setArray (.muted none))
  | .muted none | .unset | .active _ | .rampDown _ | .switching _ | .settle _ _ | .readyUp _ _ | .rampUp _ _ | .halted _
  | .muting => s

/-! ## Interlock (R103) -/

/-- TXE takes the qualified interlock state becoming OPEN (R103). -/
def takeInterlock (s : State) : State :=
  let s1 := withdraw .interlock s
  match s1.txe.array with
  | .active _ => enterMuted .interlock none (setGuard none s1)
  | .rampDown _ | .switching _ | .settle _ _ | .readyUp _ _ | .rampUp _ _ => halt .interlock .none s1
  | .muting => enterMuted .interlock none s1
  | .muted _ => s1.setArray (.muted none)
  | .unset | .halted _ => s1

/-! ## MUTE (R94 to R97) -/

/-- Steps 2 and 3 of R95 and their like: ramps to zero of the MUTE's length, then MUTING, or MUTED at once when every tower is
at rest. -/
def muteTowers (len : Nat) (s : State) : State :=
  let s1 := s.setDsy (s.dsy.rampDownAll len 0)
  if s1.dsy.allAtRest then enterMuted .command none s1 else tellLeft (s1.setArray .muting)

/-- TXE acts on MUTE after the Armed Request is withdrawn (R94 to R97). -/
def muteArray (len : Nat) (s : State) : State :=
  match s.txe.array with
  | .unset | .muting => s
  | .muted _ => s.setArray (.muted none)
  | .active _ => muteTowers len (setGuard none s)
  | .rampDown _ | .switching _ | .settle _ _ | .readyUp _ _ | .rampUp _ _ =>
    muteTowers len (setGuard none (closeRecord .muted s.txe.now s))
  | .halted _ => muteTowers len (closeRecord .muted s.txe.now s)

end Sys2Proof.Machine
end

