-- ==== Sys2Proof/Machine/Monitoring.lean ====
section
/-! DEFINITION. The Monitor Unit (06_array_monitoring_and_trim.md): monitor records, tolerance evaluation, the fault action,
the trim loop, ACK_FAULT, TRIM_CLEAR and the monitor timers. -/
namespace Sys2Proof.Machine

/-! ## Measured quantities (R111) -/

/-- The reference channel: the reference tower's, or channel 8 for EXTERNAL (R110). -/
def referenceChannel (w : Nat → Word) : Nat :=
  match recReference w with
  | some t => t.val
  | none => 8

/-- Measured ratio of tower t, in 1/16384, unlimited (R111). -/
def measuredRatio (r : MonRecord) (ref : Nat) (t : TowerIx) : Nat :=
  roundDiv (r.magnitude t.val * 16384) (r.magnitude ref)

/-- Measured phase of tower t, folded (R111). -/
def measuredPhase (r : MonRecord) (ref : Nat) (t : TowerIx) : Int := fold ((r.phase t.val : Int) - r.phase ref)

/-- The ratio error r − L (R111). -/
def ratioError (w : Nat → Word) (t : TowerIx) (r : Nat) : Int := (r : Int) - recRatio w t

/-- The phase error, folded again (R111). -/
def phaseError (w : Nat → Word) (t : TowerIx) (m : Int) : Int := fold (m - recLicPhase w t)

/-- In tolerance (R112). -/
def inTolerance (w : Nat → Word) (t : TowerIx) (r : Nat) (m : Int) : Bool :=
  (ratioError w t r).natAbs * 1000 ≤ recRatioTol w t * recRatio w t && (phaseError w t m).natAbs ≤ recPhaseTol w t

/-! ## Fault action (R114) -/

/-- Actions of TOLERANCE_FAULT, in the order of R114. -/
inductive FaultAction where
  | reported | skippedSpent | fallback | skippedArmed | skippedInterlock | failedNotValid | skippedState
deriving DecidableEq, Repr

/-- Their codes (R176). -/
def FaultAction.code : FaultAction → Nat
  | .reported => 1 | .skippedSpent => 2 | .fallback => 3 | .skippedArmed => 4 | .skippedInterlock => 5
  | .failedNotValid => 6 | .skippedState => 7

/-- The action an answer of TXE to a fallback request gives (R114). The last four answers are not given to a fallback request
of a VALID record (R17 item 13, R62); they are read as SKIPPED_STATE (log 28). -/
def actionOf : ReqAnswer → FaultAction
  | .armed _ => .fallback
  | .armedStands => .skippedArmed
  | .interlock => .skippedInterlock
  | .notValid => .failedNotValid
  | .state _ => .skippedState
  | .alreadyActive | .notPermitted | .late | .far => .skippedState

/-- MON takes the fault action of pattern p (R114): the state, and the action. -/
def takeFaultAction (w : Nat → Word) (s : State) : State × FaultAction :=
  match recFallback w with
  | none => (s, .reported)
  | some k =>
    if s.mon.spent then (s, .skippedSpent)
    else
      let r := request k (recMode (s.recordOf k)) none .fallback s
      let a := actionOf r.2
      (r.1.setMon { r.1.mon with spent := r.1.mon.spent || (a == .fallback) }, a)

/-! ## Tolerance status (R112, R113) -/

/-- Change what MON holds for tower t. -/
def Mon.setTower (m : Mon) (t : TowerIx) (x : MonTower) : Mon := { m with towers := setAt m.towers t x }

/-- A tower's status and count set. -/
def setStatus (t : TowerIx) (status : Tolerance) (count : Nat) (s : State) : State :=
  s.setMon (s.mon.setTower t { s.mon.towers[t] with status := status, count := count })

/-- The tower enters FAULT: the fault action, then TOLERANCE_FAULT with the action taken (R113). -/
def declareFault (w : Nat → Word) (t : TowerIx) (r : Nat) (m : Int) (seq : BitVec 8) (s : State) : State :=
  let x := takeFaultAction w (setStatus t .fault (recGrace w) s)
  x.1.raise .toleranceFault (subjectOf t.val)
    [word (min 65535 r), signedWord m, word x.2.code, seq.setWidth 16]

/-- The tower's status and count change for one evaluation (R112). -/
def judgeTower (w : Nat → Word) (t : TowerIx) (r : Nat) (m : Int) (seq : BitVec 8) (s : State) : State :=
  let x := s.mon.towers[t]
  if inTolerance w t r m then
    let s1 := setStatus t .inTol 0 s
    if x.status = .fault then
      s1.raise .toleranceClear (subjectOf t.val) [word (min 65535 r), signedWord m, seq.setWidth 16]
    else s1
  else if x.status = .fault then s
  else
    let count := if x.status = .out then x.count + 1 else 1
    if recGrace w ≤ count then declareFault w t r m seq s else setStatus t .out count s

/-! ## Trim loop (R117 to R119, R20) -/

/-- One part of a trim step. -/
def ampPart (w : Nat → Word) (t : TowerIx) (r : Nat) : Int :=
  if recRatioBand w * recRatio w t < (ratioError w t r).natAbs * 1000 then
    (if (r : Int) < recRatio w t then 1 else -1)
  else 0

/-- The phase part: against the sign of the error. -/
def phasePart (w : Nat → Word) (t : TowerIx) (m : Int) : Int :=
  if recPhaseBand w < (phaseError w t m).natAbs then (if 0 < phaseError w t m then -1 else 1) else 0

/-- PST takes a trim update: 16 units and 2 hundredths per step, limited at the pattern's bounds; discarded for a slot that is
not VALID (R20, R118). -/
def Pst.trimUpdate (p : Pst) (k : Slot) (t : TowerIx) (a ph : Int) : Pst :=
  if p.isValid k then
    { p with trims := modifyAt p.trims k fun ts => modifyAt ts t fun x =>
        { amp := clamp (recAmpBound (p.slotWord k)) (x.amp + 16 * a)
          phase := clamp (recPhaseBound (p.slotWord k)) (x.phase + 2 * ph) } }
  else p

/-- The quantity whose trim already stands at its bound in the step's direction, with its value: AMPLITUDE 1, PHASE 2 (R119).
Where both do, R119 does not say which the one notice names; the model names AMPLITUDE. DESIGN CHOICE, log 36. -/
def atLimit (w : Nat → Word) (x : Trim) (a ph : Int) : Option (Nat × Int) :=
  if a ≠ 0 ∧ x.amp = a * recAmpBound w then some (1, x.amp)
  else if ph ≠ 0 ∧ x.phase = ph * recPhaseBound w then some (2, x.phase)
  else none

/-- TRIM_LIMIT, once until the flag is cleared (R119). -/
def noticeLimit (w : Nat → Word) (k : Slot) (t : TowerIx) (a ph : Int) (s : State) : State :=
  match atLimit w (s.pst.trim k t) a ph with
  | none => s
  | some (q, v) =>
    if s.mon.towers[t].limitNoticed then s
    else (s.setMon (s.mon.setTower t { s.mon.towers[t] with limitNoticed := true })).raise .trimLimit
      (subjectOf t.val) [word k.val, word q, signedWord v]

/-- MON hands a trim step to PST when the pattern trims and the tower is not its local reference; a step of two zeros is not
handed on (R117). -/
def trimTower (w : Nat → Word) (k : Slot) (t : TowerIx) (r : Nat) (m : Int) (s : State) : State :=
  let a := ampPart w t r
  let ph := phasePart w t m
  if recTrimOn w = false ∨ recReference w = some t ∨ (a = 0 ∧ ph = 0) then s
  else
    let s1 := noticeLimit w k t a ph s
    s1.setPst (s1.pst.trimUpdate k t a ph)

/-! ## Records (R105, R106, R110) -/

/-- One tower of an evaluable record: comparison, fault step, trim step (R110). -/
def evaluateTower (w : Nat → Word) (k : Slot) (rec : MonRecord) (s : State) (t : TowerIx) : State :=
  let ref := referenceChannel w
  if has (recTowers w) t = true ∧ rec.channelValid t.val = true then
    trimTower w k t (measuredRatio rec ref t) (measuredPhase rec ref t)
      (judgeTower w t (measuredRatio rec ref t) (measuredPhase rec ref t) rec.seq s)
  else s

/-- The record is evaluable against pattern p (R110). -/
def evaluable (w : Nat → Word) (rec : MonRecord) (m : Mon) : Bool :=
  m.holdOff.isNone && rec.channelValid (referenceChannel w) && 1024 ≤ rec.magnitude (referenceChannel w)

/-- Evaluation of a valid record that is no repeat (R110). -/
def evaluate (rec : MonRecord) (s : State) : State :=
  match s.mon.active with
  | none => s
  | some p =>
    if evaluable (s.recordOf p) rec s.mon then allTowers.foldl (evaluateTower (s.recordOf p) p rec) s else s

/-- A valid record makes the monitor PRESENT, restarts the absence timer and is the last valid one (R105, R106). -/
def recordTaken (rec : MonRecord) (s : State) : State :=
  let s1 := s.setMon { s.mon with present := true, absence := some 0, lastSeq := some rec.seq }
  if s.mon.present then s1 else s1.raise .monitorPresent none [rec.seq.setWidth 16]

/-- A monitor record arrives whole on MON IN (R105, R106, R110). -/
def takeRecord (rx : Rx) (s : State) : State :=
  match parseMonRecord rx with
  | none => s
  | some rec =>
    if s.mon.lastSeq = some rec.seq then recordTaken rec s else evaluate rec (recordTaken rec s)

/-! ## Commands and timers -/

/-- ACK_FAULT: the flag and every out count cleared; FAULT and OUT become OUT (R116). -/
def Mon.ackFault (m : Mon) : Mon :=
  { m with
    spent := false
    towers := m.towers.map fun x =>
      { x with count := 0, status := if x.status = .fault ∨ x.status = .out then .out else x.status } }

/-- The number of towers in FAULT (R116). -/
def Mon.faults (m : Mon) : Nat := (allTowers.filter fun t => m.towers[t].status == .fault).length

/-- Every limit-noticed flag cleared (R120). -/
def Mon.clearLimits (m : Mon) : Mon := { m with towers := m.towers.map fun x => { x with limitNoticed := false } }

/-- The absence timer expires in PRESENT (R106). -/
def absenceExpiry (s : State) : State :=
  if s.mon.present = true ∧ s.mon.absence.isSome = true then
    (s.setMon { s.mon with present := false, absence := none }).raise .monitorAbsent none
      [((s.mon.lastSeq).getD 0).setWidth 16]
  else s

/-- The hold-off timer expires (R109). -/
def holdOffEnd (s : State) : State := s.setMon { s.mon with holdOff := none }

/-- MON at RESTART (R121). -/
def Mon.restart (m : Mon) : Mon :=
  { m.leaveActive.clearLimits with spent := false }

end Sys2Proof.Machine
end

