-- ==== Sys2Proof/Machine/Schedule.lean ====
section
/-! DEFINITION. The Schedule Unit (07_schedule_and_station_time.md): TIME frames and the station clock, falling due, the
hold, the table and its replacement. -/
namespace Sys2Proof.Machine

/-! ## TIME frames (R122) -/

/-- The month of a TIME body: bits 0 to 7 of its word (11.2). -/
def TimeBody.month (b : TimeBody) : Nat := field b.monthDay 0 8

/-- The day of a TIME body: bits 8 to 15. -/
def TimeBody.day (b : TimeBody) : Nat := field b.monthDay 8 8

/-- The second of day of a TIME body. -/
def TimeBody.second (b : TimeBody) : Nat := (joinWords b.secHi b.secLo).toNat

/-- Every field within its range, the day within the length of the named month (R122). -/
def TimeBody.accepted (b : TimeBody) : Bool :=
  2000 ≤ b.year.toNat && b.year.toNat ≤ 2099 && 1 ≤ b.month && b.month ≤ 12 && 1 ≤ b.day
    && b.day ≤ monthLength b.year.toNat b.month && b.second ≤ 86399

/-- The date of a TIME body. -/
def TimeBody.date (b : TimeBody) : Date := { year := b.year.toNat, month := b.month, day := b.day }

/-! ## The crossed span (R125) -/

/-- A part of a date: seconds from `first` to `last`. -/
structure SpanPart where
  date  : Date
  first : Nat
  last  : Nat
deriving DecidableEq, Repr

/-- The parts of the crossed span after (d0, t0) up to (d1, t1). -/
def spanParts (d0 : Date) (t0 : Nat) (d1 : Date) (t1 : Nat) : List SpanPart :=
  if d1 = d0 then [{ date := d0, first := t0 + 1, last := t1 }]
  else [{ date := d0, first := t0 + 1, last := 86399 }, { date := d1, first := 0, last := t1 }]

/-- The entry has an occurrence in the part (R125). R125's conditions alone decide, also where a step back brings a date's
seconds again: an entry MISSED, NOT_VALID or NOT_PERMITTED on that date occurs again, though R129 gives it no further chance, and
so does one that has fired on another date since. DESIGN CHOICE, log 40. -/
def SchedEntry.occursIn (e : SchedEntry) (p : SpanPart) : Bool :=
  e.enabled && e.months.getLsbD (p.date.month - 1) && e.lastFired != some p.date
    && p.first ≤ 60 * e.minute && 60 * e.minute ≤ p.last

/-- Insert by minute, keeping the order of the minutes. -/
def insertByMinute (x : Nat × EntryIx) : List (Nat × EntryIx) → List (Nat × EntryIx)
  | [] => [x]
  | y :: ys => if x.1 < y.1 then x :: y :: ys else y :: insertByMinute x ys

/-- The occurrences in one part, by second. -/
def occurrencesIn (u : Scu) (p : SpanPart) : List Occurrence :=
  ((allEntries.filterMap fun i => match u.table[i] with
      | some e => if e.occursIn p then some (e.minute, i) else none
      | none => none).foldr insertByMinute []).map fun x => { entry := x.2, date := p.date }

/-- The occurrences in the crossed span, by date and then by second (R125). -/
def occurrences (u : Scu) (d0 : Date) (t0 : Nat) (d1 : Date) (t1 : Nat) : List Occurrence :=
  (spanParts d0 t0 d1 t1).flatMap (occurrencesIn u)

/-! ## Taking an occurrence (R129, R133) -/

/-- The occurrence becomes the held-due entry; an older one is discarded with MISSED, REPLACED, before the notice MISSED, HOLD
of the newer (R129, R133). -/
def holdDue (o : Occurrence) (s : State) : State :=
  let s1 := match s.scu.held with
    | some h => raiseDue h .missed .replaced none s
    | none => s
  raiseDue o .missed .hold none (s1.setScu { s1.scu with held := some o })

/-- The activation frame of a schedule request: the TIME frame's number plus 64; absent as that number is (R129). -/
def leadFrame (n : Option FrameNum) : Option FrameNum := n.map (· + 64)

/-- A taken occurrence is acted on (R129). -/
def takeOccurrence (o : Occurrence) (s : State) : State :=
  if s.scu.hold then holdDue o s else actOn o (leadFrame s.rif.frame) s

/-- The occurrences of one crossing: each earlier one MISSED, EARLIER; the latest taken (R125). -/
def fallDue : List Occurrence → State → State
  | [], s => s
  | [o], s => takeOccurrence o s
  | o :: os, s => fallDue os (raiseDue o .missed .earlier none s)

/-! ## The station clock (R123, R124) -/

/-- The clock and the stale timer after an accepted TIME frame. -/
def Scu.setClock (u : Scu) (d : Date) (t : Nat) : Scu := { u with clock := .set d t, stale := some 0 }

/-- CLOCK_SET: new timestamp, state left (R124, 11.3). -/
def raiseClockSet (d : Date) (t left : Nat) (s : State) : State :=
  s.raise .clockSet none (twoWords (timestamp d t) ++ [word left])

/-- A crossing forward: the same date and a later second, or the date after (R124, third row). -/
def isForward (d0 : Date) (t0 : Nat) (d1 : Date) (t1 : Nat) : Bool := (d1 == d0 && t0 < t1) || d1 == d0.next

/-- An accepted TIME frame (d1, t1) meets a clock that held (d0, t0) in the state of code `left` (R124). -/
def crossClock (d0 : Date) (t0 left : Nat) (d1 : Date) (t1 : Nat) (s : State) : State :=
  let s1 := s.setScu (s.scu.setClock d1 t1)
  let s2 := if left = 2 then raiseClockSet d1 t1 left s1 else s1
  if d1 = d0 ∧ t1 = t0 then s2
  else if isForward d0 t0 d1 t1 then fallDue (occurrences s.scu d0 t0 d1 t1) s2
  else s1.raise .clockStepped none (twoWords (timestamp d0 t0) ++ twoWords (timestamp d1 t1))

/-- SCU takes a TIME frame (R122, R124). -/
def takeTime (b : TimeBody) (s : State) : State :=
  if b.accepted then
    match s.scu.clock with
    | .unset => raiseClockSet b.date b.second 0 (s.setScu (s.scu.setClock b.date b.second))
    | .set d t => crossClock d t 1 b.date b.second s
    | .stale d t => crossClock d t 2 b.date b.second s
  else s.raise .timeInvalid none [b.year, b.monthDay, b.secHi, b.secLo]

/-- The stale timer expires: a SET clock becomes STALE (R123). -/
def staleExpiry (s : State) : State :=
  match s.scu.clock, s.scu.stale with
  | .set d t, some _ =>
    (s.setScu { s.scu with clock := .stale d t, stale := none }).raise .clockStale none (twoWords (timestamp d t))
  | .set _ _, none | .unset, _ | .stale _ _, _ => s

/-! ## SCHEDULE_HOLD (R133, R134) -/

/-- ON: the flag set, and a deferred entry made the held-due entry with MISSED, HOLD. -/
def holdOn (s : State) : State :=
  if s.scu.hold then s
  else match s.scu.deferred with
    | none => s.setScu { s.scu with hold := true }
    | some o => raiseDue o .missed .hold none
        (s.setScu { s.scu with hold := true, deferred := none, held := some o })

/-- OFF: the flag cleared, and a held-due entry dropped, or acted on at the next frame with catch-up. -/
def holdOff (catchUp : Bool) (s : State) : State :=
  if s.scu.hold then
    match s.scu.held with
    | none => s.setScu { s.scu with hold := false }
    | some o =>
      let s1 := s.setScu { s.scu with hold := false, held := none }
      if catchUp then actOn o none s1 else raiseDue o .missed .dropped none s1
  else s

/-- The entry the answer to OFF names (R134). -/
def holdOffNames (u : Scu) : List Word :=
  if u.hold then (match u.held with
    | some o => [word o.entry.val]
    | none => [])
  else []

/-! ## The Schedule Table (R126 to R128) -/

/-- The month set field of a word: bits 0 to 11 (11.4). -/
def monthField (w : Word) : BitVec 12 := w.setWidth 12

/-- Entry j of a staged table: its number and the entry, with no last-fired date (R128, 11.4). -/
def stagedEntry (w : Nat → Word) (j : Nat) : Nat × SchedEntry :=
  (field (w (1 + 3 * j)) 0 8,
   { enabled := field (w (1 + 3 * j)) 8 2 == 1, mode := reqMode (field (w (1 + 3 * j)) 12 2),
     months := monthField (w (2 + 3 * j)), minute := field (w (3 + 3 * j)) 0 12,
     target := Fin.ofNat 16 (field (w (3 + 3 * j)) 12 4), lastFired := none })

/-- The entries of a staged table. -/
def stagedEntries (w : Nat → Word) : List (Nat × SchedEntry) :=
  (List.range (min (w 0).toNat 48)).map (stagedEntry w)

/-- SCHEDULE_DUE with MISSED, TABLE for an entry that the replacement discards (R128). -/
def discardForTable (o : Option Occurrence) (s : State) : State :=
  match o with
  | some x => raiseDue x .missed .table none s
  | none => s

/-- The staged table replaces the live one; the deferred and the held-due entries are discarded (R128). Their notices name the
target slot of the entry in the table that is replaced, where R128 and R130 do not say which table's. DESIGN CHOICE, log 37. -/
def replaceSchedule (w : Nat → Word) (s : State) : State :=
  let s1 := discardForTable s.scu.held (discardForTable s.scu.deferred s)
  s1.setScu { s1.scu with
    deferred := none
    held := none
    table := Vector.ofFn fun i => ((stagedEntries w).find? fun x => x.1 == i.val).map (·.2) }

/-- A mode field (11.4). -/
def ReqMode.code : ReqMode → Nat
  | .default => 0 | .fullMute => 1 | .blend => 2

/-- The three words of an entry (11.4). -/
def SchedEntry.words (e : SchedEntry) (i : EntryIx) : List Word :=
  [word (i.val + flagBit e.enabled 8 + 4096 * e.mode.code), e.months.setWidth 16, word (e.minute + 4096 * e.target.val)]

/-- The words of the live table, ascending (R126). -/
def Scu.tableWords (u : Scu) : List Word :=
  let es := allEntries.filterMap fun i => u.table[i].map fun e => e.words i
  word es.length :: es.flatten

/-- SCU at RESTART: hold flag, deferred and held-due entries cleared, the rest kept (R135). -/
def Scu.restart (u : Scu) : Scu := { u with hold := false, deferred := none, held := none }

end Sys2Proof.Machine
end

