-- ==== Sys2Proof/Machine/Loading.lean ====
section
/-! DEFINITION. The Load Unit (08_table_loading.md) with what the Pattern Store does for it: claims, the Load Buffer, segment
writes, the check and its completion, abandonment, READ. -/
namespace Sys2Proof.Machine

/-! ## Answers -/

/-- A refusal or an answer with these data words. -/
def answer (o : OutcomeCode) (data : List Word) : Answer := { outcome := o, data := data }

/-- HELD_BY, naming the holder (R138, R142). -/
def heldBy (h : BitVec 3) : Answer := answer .heldBy [h.setWidth 16]

/-! ## Claim records and the buffer (R137, R141) -/

/-- The claim record of target t replaced. -/
def State.setClaim (s : State) (t : Target) (c : Option Claim) : State :=
  s.setLdu { s.ldu with claims := setAt s.ldu.claims t c }

/-- The target is CHECKING. -/
def Claim.isChecking (c : Claim) : Bool :=
  match c.phase with
  | .checking _ _ => true
  | .loading _ => false

/-- The buffer's start offset and words when target t owns it. -/
def Ldu.buffered (u : Ldu) (t : Target) : Option (Nat × List Word) :=
  match u.buf with
  | some b => if b.owner = t then some (b.start, b.words) else none
  | none => none

/-- Words of target t in the buffer are discarded (R139, R148). -/
def Ldu.dropBuffer (u : Ldu) (t : Target) : Ldu := if (u.buffered t).isSome then { u with buf := none } else u

/-- The staging area of target 16 or 17 cleared; nothing for a slot (R139, R147, R148). -/
def Ldu.clearStaging (u : Ldu) (t : Target) : Ldu :=
  if t.val = 16 then { u with staging16 := [] } else if t.val = 17 then { u with staging17 := [] } else u

/-- Word k of the target's region: of the slot's region, or of the staging area (R136). -/
def regionWord (s : State) (t : Target) (k : Nat) : Word :=
  match targetSlot t with
  | some p => s.pst.slotWord p k
  | none => if t.val = 16 then s.ldu.staging16.read k else s.ldu.staging17.read k

/-- Checks 1 and 2 of R142, shared by every command of a claimed target: unclaimed, or another's. -/
def ownClaim (s : State) (t : Target) (source : BitVec 3) : Except Answer Claim :=
  match s.ldu.claims[t] with
  | none => .error (answer .notClaimed [])
  | some c => if c.holder = source then .ok c else .error (heldBy c.holder)

/-- Checks 1 to 3 of R142: and CHECKING. -/
def ownLoading (s : State) (t : Target) (source : BitVec 3) : Except Answer Claim :=
  match ownClaim s t source with
  | .error a => .error a
  | .ok c => if c.isChecking then .error (answer .wrongState []) else .ok c

/-! ## CLAIM (R138, R139, R3, R4) -/

/-- Check 4 of R138: the region does not fit the store or the staging area. -/
def claimTooLong (t : Target) (base len : Nat) : Bool :=
  if t.val < 16 then 2048 < base + len else if t.val = 16 then 73 < len else 145 < len

/-- Two regions share a word. -/
def regionsMeet (b1 l1 b2 l2 : Nat) : Bool := b1 < b2 + l2 && b2 < b1 + l1

/-- Check 5 of R138: the lowest-numbered other non-EMPTY slot whose region shares a word with the given one. -/
def overlapping (p : Pst) (k : Slot) (base len : Nat) : Option Slot :=
  allSlots.find? fun j => j != k && (match p.dir[j].region with
    | some (b, l) => regionsMeet base len b l
    | none => false)

/-- The slot of the target is in the in-use set. -/
def targetInUse (s : State) (t : Target) : Bool :=
  match targetSlot t with
  | some k => s.txe.inUse k
  | none => false

/-- The overlap of a slot target. -/
def targetOverlap (s : State) (t : Target) (base len : Nat) : Option Slot :=
  match targetSlot t with
  | some k => overlapping s.pst k base len
  | none => none

/-- Checks 1 and 2 of R138 on the claim record. -/
def claimRecordRefusal (c : Option Claim) (source : BitVec 3) : Option Answer :=
  match c with
  | none => none
  | some c =>
    if c.holder ≠ source then some (heldBy c.holder)
    else if c.isChecking then some (answer .wrongState [])
    else none

/-- The first check of R138 that applies. -/
def claimRefusal (t : Target) (base len : Nat) (source : BitVec 3) (s : State) : Option Answer :=
  match claimRecordRefusal s.ldu.claims[t] source with
  | some a => some a
  | none =>
    if targetInUse s t then some (answer .inUse [])
    else if claimTooLong t base len then some (answer .range [])
    else (targetOverlap s t base len).map fun j => answer .overlap [word j.val]

/-- PST makes the slot LOADING: region placed and set to zero, trims zero, check value and label gone (R4). -/
def Pst.claim (p : Pst) (k : Slot) (base len : Nat) (holder : BitVec 3) : Pst :=
  { p.setEntry k (.loading base len holder) with store := p.store.clear base len,
                                                   trims := (p.clearTrims k).trims }

/-- Step 3 of R139. -/
def claimRegion (t : Target) (base len : Nat) (holder : BitVec 3) (s : State) : State :=
  match targetSlot t with
  | some k => s.setPst (s.pst.claim k base len holder)
  | none => s.setLdu (s.ldu.clearStaging t)

/-- A CLAIM that is taken (R139). -/
def takeClaim (t : Target) (base len segment : Nat) (holder : BitVec 3) (s : State) : State :=
  (claimRegion t base len holder (s.setLdu (s.ldu.dropBuffer t))).setClaim t
    (some { phase := .loading 0, holder := holder, length := len, segment := segment, running := 0, committed := 0 })

/-- CLAIM (R138, R139). -/
def claimBody (m : Mgmt) (s : State) : State × Answer :=
  match claimRefusal (targetParam m) (m.num 1) (m.num 2) m.source s with
  | some a => (s, a)
  | none =>
    (takeClaim (targetParam m) (m.num 1) (m.num 2) (segmentLength (m.num 3)) m.source s,
     answer .done [word (m.num 2), word (segmentLength (m.num 3))])

/-! ## Segments (R8, R143) -/

/-- PST takes a segment write, or reports RANGE or WRONG_STATE (R8). -/
def Pst.writeSegment (p : Pst) (k : Slot) (start : Nat) (ws : List Word) : Except OutcomeCode Pst :=
  match p.dir[k] with
  | .loading b l _ =>
    if start + ws.length ≤ l then .ok { p with store := p.store.writeAll (b + start) ws } else .error .range
  | .empty | .checking _ _ _ | .valid _ _ _ _ => .error .wrongState

/-- A segment goes to the slot's region or into the staging area (R143). -/
def writeSegment (t : Target) (start : Nat) (ws : List Word) (s : State) : Except OutcomeCode State :=
  match targetSlot t with
  | some k => match s.pst.writeSegment k start ws with
    | .ok p => .ok (s.setPst p)
    | .error o => .error o
  | none =>
    .ok (s.setLdu (if t.val = 16 then { s.ldu with staging16 := s.ldu.staging16.writeAll start ws }
                   else { s.ldu with staging17 := s.ldu.staging17.writeAll start ws }))

/-- How far a LOAD has got: the words held with their start offset, the committed offset, the segments written, and what the
store reported if it did not take a segment. -/
structure LoadRun where
  state     : State
  start     : Nat
  held      : List Word
  committed : Nat
  segments  : Nat
  failed    : Option OutcomeCode

/-- The words of a LOAD appended one by one, each full segment written (R143). -/
def appendWords (t : Target) (segment : Nat) : List Word → LoadRun → LoadRun
  | [], r => r
  | w :: ws, r =>
    if r.held.length + 1 = segment then
      match writeSegment t r.start (r.held ++ [w]) r.state with
      | .ok s =>
        appendWords t segment ws
          { state := s, start := r.start + segment, held := [], committed := max r.committed (r.start + segment),
            segments := r.segments + 1, failed := none }
      | .error o => { r with start := r.committed, held := [], failed := some o }
    else appendWords t segment ws { r with held := r.held ++ [w] }

/-- The Load Buffer that holds these words, free when there are none (R141). -/
def bufferOf (t : Target) (start : Nat) (ws : List Word) : Option LoadBuffer :=
  if ws = [] then none else some { owner := t, start := start, words := ws }

/-- The buffer's owner when it is another target (R142 check 4). -/
def otherOwner (u : Ldu) (t : Target) : Option Target :=
  match u.buf with
  | some b => if b.owner = t then none else some b.owner
  | none => none

/-- Checks 4 to 6 of R142. -/
def loadRefusal (t : Target) (off count : Nat) (c : Claim) (s : State) : Option Answer :=
  match otherOwner s.ldu t with
  | some o => some (answer .bufferBusy [word o.val])
  | none =>
    if off ≠ c.running then some (answer .offset [word c.running, word c.committed])
    else if c.length < off + count then some (answer .range [word c.length])
    else none

/-- The claim after a LOAD: its offsets, and the lapse timer from zero (R143). -/
def Claim.afterLoad (c : Claim) (r : LoadRun) (count : Nat) : Claim :=
  { c with phase := .loading 0, running := if r.failed.isSome then r.committed else c.running + count,
           committed := r.committed }

/-- What the buffer and the claim hold as the words of a LOAD begin to be appended. -/
def loadStart (t : Target) (c : Claim) (s : State) : LoadRun :=
  { state := s, start := ((s.ldu.buffered t).map (·.1)).getD c.running,
    held := ((s.ldu.buffered t).map (·.2)).getD [], committed := c.committed, segments := 0, failed := none }

/-- A LOAD that is taken (R143). -/
def takeLoad (t : Target) (c : Claim) (ws : List Word) (s : State) : State × Answer :=
  let r := appendWords t c.segment ws (loadStart t c s)
  let c' := c.afterLoad r ws.length
  ((r.state.setLdu { r.state.ldu with buf := bufferOf t r.start r.held }).setClaim t (some c'),
   match r.failed with
   | some o => answer o []
   | none => answer .done [word c'.running, word c'.committed, word r.segments])

/-- LOAD (R142, R143). -/
def loadBody (m : Mgmt) (s : State) : State × Answer :=
  match ownLoading s (targetParam m) m.source with
  | .error a => (s, a)
  | .ok c =>
    match loadRefusal (targetParam m) (m.num 1) (m.params.drop 2).length c s with
    | some a => (s, a)
    | none => takeLoad (targetParam m) c (m.params.drop 2) s

/-! ## COMMIT (R144) -/

/-- The target's buffered words written as one short segment and the buffer freed; whether any were held (R144, R145). A write
that PST does not take is treated as in R143; R142 keeps it from arising. -/
def flush (t : Target) (c : Claim) (s : State) : Except (State × Answer) (State × Claim × Bool) :=
  match s.ldu.buffered t with
  | none => .ok (s, c, false)
  | some (start, ws) =>
    match writeSegment t start ws s with
    | .ok s1 =>
      .ok (s1.setLdu { s1.ldu with buf := none }, { c with committed := max c.committed (start + ws.length) }, true)
    | .error o =>
      .error ((s.setLdu { s.ldu with buf := none }).setClaim t (some { c with running := c.committed }), answer o [])

/-- The committed offset as it would stand after the write of a COMMIT. -/
def committedAfter (u : Ldu) (t : Target) (c : Claim) : Nat :=
  match u.buffered t with
  | some (start, ws) => max c.committed (start + ws.length)
  | none => c.committed

/-- The resume offset of COMMIT: 65535 for absent (11.2). -/
def resumeParam (m : Mgmt) : Option Nat := if m.num 1 = 65535 then none else some (m.num 1)

/-- The resume offset lies above the committed offset as it would stand. -/
def resumeTooFar (r : Option Nat) (committed : Nat) : Bool :=
  match r with
  | some n => committed < n
  | none => false

/-- A COMMIT that is taken. -/
def takeCommit (t : Target) (c : Claim) (resume : Option Nat) (s : State) : State × Answer :=
  match flush t c s with
  | .error r => r
  | .ok (s1, c1, wrote) =>
    let c2 := { c1 with phase := .loading 0, running := resume.getD c1.running }
    (s1.setClaim t (some c2), answer (if wrote then .done else .empty) [word c2.running, word c2.committed])

/-- COMMIT (R144). -/
def commitBody (m : Mgmt) (s : State) : State × Answer :=
  match ownLoading s (targetParam m) m.source with
  | .error a => (s, a)
  | .ok c =>
    if resumeTooFar (resumeParam m) (committedAfter s.ldu (targetParam m) c) then
      (s, answer .offset [word c.running, word c.committed])
    else takeCommit (targetParam m) c (resumeParam m) s

/-! ## FINISH (R145) -/

/-- The staged Contactor Table with the buffered words of target 16 included as though written (R145). -/
def stagedView (s : State) (k : Nat) : Word :=
  match s.ldu.buffered 16 with
  | some (start, ws) => if start ≤ k ∧ k < start + ws.length then ws.getD (k - start) 0 else s.ldu.staging16.read k
  | none => s.ldu.staging16.read k

/-- The conditions of R52 for a staged table. -/
inductive Replacement where
  | allowed
  | wrongState
  | referenced (k : Slot) (c : ContactorIx)
deriving DecidableEq, Repr

/-- The conditions examined: array state and towers first, then the references. -/
def replacement (w : Nat → Word) (s : State) : Replacement :=
  if replacementAllowed s then
    match missingReference w s with
    | some (k, c) => .referenced k c
    | none => .allowed
  else .wrongState

/-- Check 4 of R145, for target 16 only. -/
def finishRefusal (t : Target) (s : State) : Option Answer :=
  if t.val = 16 then
    match replacement (stagedView s) s with
    | .allowed => none
    | .wrongState => some (answer .wrongState [])
    | .referenced k c => some (answer .referenced [word k.val, word c.val])
  else none

/-- PST makes a LOADING slot CHECKING (R5). -/
def Pst.finish (p : Pst) (k : Slot) : Pst :=
  match p.dir[k] with
  | .loading b l h => p.setEntry k (.checking b l h)
  | .empty | .checking _ _ _ | .valid _ _ _ _ => p

/-- The slot of the target changed by f. -/
def onSlot (t : Target) (f : Pst → Slot → Pst) (s : State) : State :=
  match targetSlot t with
  | some k => s.setPst (f s.pst k)
  | none => s

/-- A FINISH that is taken. -/
def takeFinish (t : Target) (c : Claim) (expected : Word) (s : State) : State × Answer :=
  match flush t c s with
  | .error r => r
  | .ok (s1, c1, _) =>
    ((onSlot t Pst.finish s1).setClaim t (some { c1 with phase := .checking expected 0 }),
     answer .started [word c1.committed])

/-- FINISH (R145). -/
def finishBody (m : Mgmt) (s : State) : State × Answer :=
  match ownLoading s (targetParam m) m.source with
  | .error a => (s, a)
  | .ok c =>
    match finishRefusal (targetParam m) s with
    | some a => (s, a)
    | none => takeFinish (targetParam m) c (m.param 1) s

/-! ## Validation items (R17, R51, R127) -/

/-- An item: its number, whether it passes, and the offset it reports. -/
structure Item where
  number : Nat
  pass   : Bool
  offset : Nat
deriving DecidableEq, Repr

/-- The first item that fails. -/
def firstFailure (items : List Item) : Option Item := items.find? fun i => !i.pass

/-- A number lies in a range. -/
def within (lo hi n : Nat) : Bool := lo ≤ n && n ≤ hi

/-- The index of the first label character outside 32 to 126. -/
def badLabelChar (w : Nat → Word) : Option Nat :=
  [0, 1, 2, 3].find? fun k => !within 32 126 (labelChar (recLabel w) k).toNat

/-- Items 1 to 18 of R17 for the record of slot k. -/
def headerItems (k : Slot) (w : Nat → Word) : List Item :=
  let n := fun j => (w j).toNat
  [ ⟨1, n 0 == 41217, 0⟩,
    ⟨2, (badLabelChar w).isNone, 1 + (badLabelChar w).getD 0 / 2⟩,
    ⟨3, within 1 255 (n 3), 3⟩,
    ⟨4, n 4 == 255 || (match recReference w with
        | some t => has (recTowers w) t
        | none => false), 4⟩,
    ⟨5, n 5 ≤ 32768, 5⟩,
    ⟨6, n 6 ≤ 4095, 6⟩,
    ⟨7, n 7 ≤ 4095, 7⟩,
    ⟨8, n 8 ≤ 2000, 8⟩,
    ⟨9, n 9 ≤ 10000, 9⟩,
    ⟨10, field (w 10) 0 2 == 0 || (field (w 10) 0 2 == 1 && recBlend w), 10⟩,
    ⟨11, field (w 10) 4 2 ≤ 1, 10⟩,
    ⟨12, within 1 255 (recGrace w), 11⟩,
    ⟨13, n 12 == 65535 || (n 12 ≤ 15 && n 12 != k.val), 12⟩,
    ⟨14, field (w 10) 8 2 ≤ 1, 10⟩,
    ⟨15, n 13 ≤ 2048, 13⟩,
    ⟨16, n 14 ≤ 500, 14⟩,
    ⟨17, recRatioBand w ≤ 100, 11⟩,
    ⟨18, n 15 ≤ 1000, 15⟩ ]

/-- Items 19 to 24 of R17 for the entry of tower t. -/
def entryItems (w : Nat → Word) (t : TowerIx) : List Item :=
  let base := 16 + 7 * entryIndex (recTowers w) t
  let n := fun j => (w (base + j)).toNat
  let local_ := recReference w == some t
  [ ⟨19, n 0 == t.val, base⟩,
    ⟨20, n 2 ≤ 35999, base + 2⟩,
    ⟨21, 1 ≤ n 3 && (!local_ || n 3 == 16384), base + 3⟩,
    ⟨22, (w (base + 4)).toInt.natAbs ≤ 18000 && (!local_ || n 4 == 0), base + 4⟩,
    ⟨23, within 1 100 (n 5) && recRatioBand w < n 5, base + 5⟩,
    ⟨24, within 10 1000 (n 6) && recPhaseBand w < n 6, base + 6⟩ ]

/-- Items 26 to 28 of R17 for requirement entry j. -/
def requirementItems (live : Ctu) (w : Nat → Word) (j : Nat) : List Item :=
  let off := countOffset w + 1 + j
  let number := fun i => field (w (countOffset w + 1 + i)) 0 8
  [ ⟨26, number j ≤ 23 && field (w off) 8 8 ≤ 1, off⟩,
    ⟨27, (List.range j).all fun i => number i != number j, off⟩,
    ⟨28, (match requirement (w off) with
        | some r => (live.units[r.1].entry).isSome
        | none => false), off⟩ ]

/-- The items of R17 in the order of the table. -/
def patternItems (k : Slot) (live : Ctu) (w : Nat → Word) : List Item :=
  headerItems k w
  ++ (allTowers.filter (has (recTowers w))).flatMap (entryItems w)
  ++ [⟨25, (w (countOffset w)).toNat ≤ 24, countOffset w⟩]
  ++ (List.range (min (w (countOffset w)).toNat 24)).flatMap (requirementItems live w)

/-- Items 2 to 5 of R51 for entry j. -/
def contactorItems (w : Nat → Word) (j : Nat) : List Item :=
  [ ⟨2, (w (1 + 3 * j)).toNat ≤ 23, 1 + 3 * j⟩,
    ⟨3, (List.range j).all fun i => w (1 + 3 * i) != w (1 + 3 * j), 1 + 3 * j⟩,
    ⟨4, (w (2 + 3 * j)).toNat ≤ 7 || (w (2 + 3 * j)).toNat == 255, 2 + 3 * j⟩,
    ⟨5, within 20 5000 (w (3 + 3 * j)).toNat, 3 + 3 * j⟩ ]

/-- The items of R51. -/
def contactorTableItems (w : Nat → Word) : List Item :=
  ⟨1, (w 0).toNat ≤ 24, 0⟩ :: (List.range (min (w 0).toNat 24)).flatMap (contactorItems w)

/-- Two enabled entries share a minute and a month. -/
def entriesConflict (a b : SchedEntry) : Bool :=
  a.enabled && b.enabled && a.minute == b.minute && (a.months &&& b.months) != 0

/-- Items 2 to 8 of R127 for entry j; the word item 8 names is a free value (log 13). -/
def scheduleItems (w : Nat → Word) (j : Nat) : List Item :=
  [ ⟨2, field (w (1 + 3 * j)) 0 8 ≤ 47, 1 + 3 * j⟩,
    ⟨3, (List.range j).all fun i => field (w (1 + 3 * i)) 0 8 != field (w (1 + 3 * j)) 0 8, 1 + 3 * j⟩,
    ⟨4, field (w (1 + 3 * j)) 8 2 ≤ 1, 1 + 3 * j⟩,
    ⟨5, within 1 4095 (w (2 + 3 * j)).toNat, 2 + 3 * j⟩,
    ⟨6, field (w (3 + 3 * j)) 0 12 ≤ 1439, 3 + 3 * j⟩,
    ⟨7, field (w (1 + 3 * j)) 12 2 ≤ 2, 1 + 3 * j⟩,
    ⟨8, (List.range j).all fun i => !entriesConflict (stagedEntry w i).2 (stagedEntry w j).2,
      1 + 3 * j + (Config.conflictWord j).val⟩ ]

/-- The items of R127. -/
def scheduleTableItems (w : Nat → Word) : List Item :=
  ⟨1, (w 0).toNat ≤ 48, 0⟩ :: (List.range (min (w 0).toNat 48)).flatMap (scheduleItems w)

/-! ## The check (R146) -/

/-- Outcomes of a check (R147). -/
inductive CheckOutcome where
  | valid
  | checkFail
  | badLength (size : Option Nat)
  | badItem (i : Item)
  | wrongState
  | referenced (k : Slot) (c : ContactorIx)
deriving DecidableEq, Repr

/-- The check value of the target's region (R16). -/
def computedCheck (s : State) (t : Target) (len : Nat) : Word := checkWord ((List.range len).map (regionWord s t))

/-- The size found from the content (1 + 3 × count for the tables); for a slot it cannot be found when the count word lies at
or beyond the committed length (R10; log 32). -/
def contentSize (t : Target) (committed : Nat) (w : Nat → Word) : Option Nat :=
  if t.val < 16 then
    (if committed ≤ countOffset w then none else some (countOffset w + 1 + (w (countOffset w)).toNat))
  else some (1 + 3 * (w 0).toNat)

/-- The validation items of the target (R146 examination 4). -/
def targetItems (s : State) (t : Target) (w : Nat → Word) : List Item :=
  match targetSlot t with
  | some k => patternItems k s.ctu w
  | none => if t.val = 16 then contactorTableItems w else scheduleTableItems w

/-- The replacement conditions, for target 16 only (R146 examination 5). -/
def replacementOutcome (t : Target) (w : Nat → Word) (s : State) : CheckOutcome :=
  if t.val = 16 then
    match replacement w s with
    | .allowed => .valid
    | .wrongState => .wrongState
    | .referenced k c => .referenced k c
  else .valid

/-- The examinations of R146 in order. -/
def checkOutcome (s : State) (t : Target) (c : Claim) (expected : Word) : CheckOutcome :=
  let w := regionWord s t
  if computedCheck s t c.length ≠ expected then .checkFail
  else if c.committed ≠ c.length ∨ contentSize t c.committed w ≠ some c.length then
    .badLength (contentSize t c.committed w)
  else match firstFailure (targetItems s t w) with
    | some i => .badItem i
    | none => replacementOutcome t w s

/-- The size word of CHECK_DONE: NONE as 0; a size that does not fit a word is a free value (R147, 11.3; log 13). -/
def sizeWord : Option Nat → Word
  | none => 0
  | some n => if n < 65536 then word n else Config.oversizeWord n

/-- The details of CHECK_DONE (R147, 11.3). -/
def checkDetails (s : State) (c : Claim) (expected computed : Word) : CheckOutcome → List Word
  | .valid => [1, computed, 0, 0]
  | .checkFail => [2, computed, expected, 0]
  | .badLength size => [word (3 + 256 * 1), computed, word c.committed, sizeWord size]
  | .badItem i => [word (3 + 256 * 2), computed, word i.offset, word i.number]
  | .wrongState => [4, computed, word s.txe.array.code, 0]
  | .referenced k n => [5, computed, word k.val, word n.val]

/-! ## Completion (R147, R6) -/

/-- PST makes a CHECKING slot VALID with the computed check value and the record's label (R6). -/
def Pst.accept (computed : Word) (p : Pst) (k : Slot) : Pst :=
  match p.dir[k] with
  | .checking b l _ => p.setEntry k (.valid b l computed (recLabel (p.slotWord k)))
  | .empty | .loading _ _ _ | .valid _ _ _ _ => p

/-- PST returns a CHECKING slot to LOADING (R6). -/
def Pst.reopen (p : Pst) (k : Slot) : Pst :=
  match p.dir[k] with
  | .checking b l h => p.setEntry k (.loading b l h)
  | .empty | .loading _ _ _ | .valid _ _ _ _ => p

/-- The content becomes live (R147): the slot VALID, or a table replaced and its staging cleared. -/
def makeLive (t : Target) (computed : Word) (s : State) : State :=
  if t.val < 16 then onSlot t (Pst.accept computed) s
  else
    let s1 := if t.val = 16 then replaceContactors (regionWord s t) s else replaceSchedule (regionWord s t) s
    s1.setLdu (s1.ldu.clearStaging t)

/-- What LDU does on the outcome, before CHECK_DONE (R147). -/
def actOnCheck (t : Target) (c : Claim) (computed : Word) (o : CheckOutcome) (s : State) : State :=
  if o = .valid then (makeLive t computed s).setClaim t none
  else (onSlot t Pst.reopen s).setClaim t (some { c with phase := .loading 0, running := c.committed })

/-- The running check of target t completes (R147); where none runs, nothing changes. -/
def completeCheck (t : Target) (s : State) : State :=
  match s.ldu.claims[t] with
  | none => s
  | some c =>
    match c.phase with
    | .loading _ => s
    | .checking expected _ =>
      let o := checkOutcome s t c expected
      let computed := computedCheck s t c.length
      (actOnCheck t c computed o s).raise .checkDone (subjectOf t.val) (checkDetails s c expected computed o)

/-! ## Abandonment (R148, R140, R6) -/

/-- PST makes the slot EMPTY and releases its region (R6); the words of store memory stay (R1). -/
def Pst.abandon (p : Pst) (k : Slot) : Pst := p.setEntry k .empty

/-- The steps of R148. -/
def abandon (t : Target) (s : State) : State :=
  (onSlot t Pst.abandon (s.setLdu ((s.ldu.dropBuffer t).clearStaging t))).setClaim t none

/-- UNCLAIM (R148). -/
def unclaimBody (m : Mgmt) (s : State) : State × Answer :=
  match ownClaim s (targetParam m) m.source with
  | .error a => (s, a)
  | .ok c => (abandon (targetParam m) s, answer .done [word c.committed])

/-- The claim lapses: as for an UNCLAIM from the holder, with CLAIM_LAPSED (R140). The timer runs in LOADING only. -/
def lapse (t : Target) (s : State) : State :=
  match s.ldu.claims[t] with
  | none => s
  | some c =>
    if c.isChecking then s
    else (abandon t s).raise .claimLapsed (subjectOf t.val) [c.holder.setWidth 16, word c.committed]

/-! ## READ (R149) -/

/-- The 256 words of trim memory (R21). -/
def Pst.trimWords (p : Pst) : List Word :=
  allSlots.flatMap fun k => allTowers.flatMap fun t => [signedWord (p.trim k t).amp, signedWord (p.trim k t).phase]

/-- The words of a target's live content, none for an EMPTY slot (R149). -/
def readable (s : State) (target : Nat) : Option (List Word) :=
  if h : target < 16 then
    (s.pst.dir[target].region).map fun r => (List.range r.2).map (s.pst.slotWord ⟨target, h⟩)
  else if target = 16 then some s.ctu.tableWords
  else if target = 17 then some s.scu.tableWords
  else if target = 18 then some (s.txe.history.flatMap HistRecord.words)
  else some s.pst.trimWords

/-- The words at offsets off to off + n − 1, zero at or beyond the length, with DONE or RANGE. -/
def readWords (ws : List Word) (off n : Nat) : Answer :=
  answer (if off + n ≤ ws.length then .done else .range) ((List.range n).map fun i => ws.getD (off + i) 0)

/-- READ (R149). -/
def readBody (m : Mgmt) (s : State) : State × Answer :=
  (s, match readable s (m.num 0) with
      | none => answer .wrongState []
      | some ws => readWords ws (m.num 1) (m.num 2))

/-! ## RESTART (R150, R9) -/

/-- Every LOADING or CHECKING slot becomes EMPTY (R9). -/
def SlotEntry.restart : SlotEntry → SlotEntry
  | .empty | .loading _ _ _ | .checking _ _ _ => .empty
  | .valid b l c n => .valid b l c n

/-- PST at RESTART: the words of store memory are not altered (R9). -/
def Pst.restart (p : Pst) : Pst := { p with dir := p.dir.map SlotEntry.restart }

end Sys2Proof.Machine
end

