-- ==== Sys2Proof/Machine/Ring.lean ====
section
/-! DEFINITION. The Ring Interface (09_the_array_ring.md): receive states, ring loss and regain, the frames of the ring cycle,
joining, releases and REPORT frames; with the frames DSY writes of its own pace (R30, R31). -/
namespace Sys2Proof.Machine

/-! ## Receive states (R154) -/

/-- The frame follows the run. -/
def Rif.follows (r : Rif) (n : FrameNum) : Bool :=
  r.run != 0 && (match r.last with
    | some m => n == m + 1
    | none => false)

/-- State and run after a valid sample frame (R154). -/
def Rif.stepValid (r : Rif) (n : FrameNum) : RecvState × Nat :=
  match r.recv with
  | .hunt => if r.follows n then (if 2 ≤ r.run + 1 then .sync else .hunt, r.run + 1) else (.hunt, 1)
  | .sync => if r.follows n then (if 16 ≤ r.run + 1 then .good else .sync, min 16 (r.run + 1)) else (.sync, 1)
  | .good => (.good, 16)

/-- The loss timer runs in SYNC and GOOD; a valid sample frame restarts it (R155). -/
def lossAfter (recv : RecvState) : Option Nat := if recv = .hunt then none else some 0

/-- The current frame number after a valid sample frame: its own number if it is handed (R157). -/
def Rif.frameAfter (r : Rif) (recv : RecvState) (n : FrameNum) : Option FrameNum :=
  if recv = .hunt then r.frame else some n

/-- RIF takes a valid sample frame; the message slot of its ring cycle opens (R154, R155, R157). -/
def Rif.takeValid (r : Rif) (n : FrameNum) (rx : Rx) : Rif :=
  { r with
    recv := (r.stepValid n).1, run := (r.stepValid n).2, last := some n, loss := lossAfter (r.stepValid n).1,
    frame := r.frameAfter (r.stepValid n).1 n, slotOpen := true, out := some rx }

/-- The current frame number plus 1, absent as it is (R157). -/
def Rif.nextFrame (r : Rif) : Option FrameNum := r.frame.map (· + 1)

/-- RIF takes a failed sample frame (R154, R157). -/
def Rif.takeFailed (r : Rif) (rx : Rx) : Rif :=
  { r with
    run := if r.recv = .good then r.run else 0
    frame := if r.recv = .hunt then r.frame else r.nextFrame
    slotOpen := true
    out := some rx }

/-! ## Regain and loss (R156, R155) -/

/-- RIF examines the loss-since-good flag on an entry to GOOD: the regain signal, then RING_REGAINED; then the loss count is
set to 0 (R156; log 9). -/
def enterGood (s : State) : State :=
  let s1 :=
    if s.rif.lossSinceGood then
      let t := takeRegain (s.setRif { s.rif with lossSinceGood := false })
      t.raise .ringRegained none [word s.rif.lossCount]
    else s
  s1.setRif { s1.rif with lossCount := 0 }

/-- RIF after it entered LOST and HUNT (R155). -/
def Rif.dropped (r : Rif) : Rif :=
  { r with recv := .hunt, run := 0, loss := none, lossSinceGood := true, lossCount := min 65535 (r.lossCount + 1) }

/-- The steps of R155 in order: the held release and the join dropped, LOST to DSY and TXE, RING_LOST without a frame number,
HUNT. Then TXE takes the at-rest changes of the forcing, at the loss itself for a ramp that stood at amplitude zero. DESIGN CHOICE,
log 39. -/
def loseRing (s : State) : State :=
  let s1 := s.setRif { s.rif with held := false, joined := false }
  let s2 := takeLost (s1.setDsy s1.dsy.takeLost)
  let s3 := s2.raise .ringLost none (optFrameWords s.rif.last)
  takeAtRest (s3.setRif s3.rif.dropped)

/-- The loss timer expires: it runs in SYNC and GOOD only (R155). -/
def lossExpiry (s : State) : State := if s.rif.recv = .hunt then s else loseRing s

/-! ## Sample frames (R154, R157, R22, R30) -/

/-- DSY and TXE take a valid sample frame that RIF hands over (R22, R32, R64). -/
def handValid (f : Sample) (s : State) : State :=
  ringFrame (sampleSource f) (s.dsy.renumbers f.number) (s.setDsy (s.dsy.takeValid f))

/-- DSY and TXE take a frame that is built from held values: a failed or a missed one (R30). -/
def handHeld (pace : Nat) (s : State) : State :=
  ringFrame s.dsy.heldSource false (s.setDsy { s.dsy with paceLeft := pace })

/-- A valid sample frame is received. -/
def receiveValid (f : Sample) (rx : Rx) (s : State) : State :=
  let s1 := s.setRif (s.rif.takeValid f.number rx)
  let s2 := if s.rif.recv ≠ .good ∧ s1.rif.recv = .good then enterGood s1 else s1
  if s1.rif.recv = .hunt then s2 else handValid f s2

/-- A failed sample frame is received; in HUNT it is not handed over. -/
def receiveFailed (rx : Rx) (s : State) : State :=
  let s1 := s.setRif (s.rif.takeFailed rx)
  if s.rif.recv = .hunt ∨ s.dsy.localPace = true then s1 else handHeld Config.missedQuarters s1

/-- A sample frame is received. -/
def receiveSample (rx : Rx) (s : State) : State :=
  match parseSample rx with
  | some f => receiveValid f rx s
  | none => receiveFailed rx s

/-- A frame is missed: DSY writes from held values, RIF's frame number advances, and the ring cycle has no message slot that
RIF takes (R30, R157). At the local pace no frame is missed. -/
def missFrame (s : State) : State :=
  if s.dsy.localPace then s
  else handHeld Config.paceQuarters (s.setRif { s.rif with frame := s.rif.nextFrame, slotOpen := false })

/-- A frame of the local pace (R31): no frame event; the at-rest changes reach TXE. -/
def localFrame (s : State) : State := if s.dsy.localPace then takeAtRest (s.setDsy s.dsy.writeLocal) else s

/-! ## The message slot (R157, R158) -/

/-- RIF takes message frames in SYNC and GOOD, the first complete one of a ring cycle (R157, R159). -/
def slotTakes (s : State) : Bool := s.rif.slotOpen && s.rif.recv != .hunt

/-- A message frame passes: it leaves unchanged, and a complete one closes the slot (R157, R158; log 16). -/
def passMessage (rx : Rx) (s : State) : State :=
  s.setRif { s.rif with slotOpen := s.rif.slotOpen && rx.aborted, out := some rx }

/-! ## MGMT and TIME (R159, R165) -/

/-- The frame is for this unit, from a controller, with an admitted parameter count (R159). -/
def forThisUnit (s : State) (m : Mgmt) : Bool :=
  (m.dest == s.rif.addr || m.dest == 0) && m.source != 0 && m.params.length ≤ 56

/-- CMU takes a MGMT frame: it joins the Command Queue, or is dropped with OVERRUN (R165). -/
def enqueue (m : Mgmt) (s : State) : State :=
  if s.cmu.queue.length < 4 then s.setCmu { s.cmu with queue := s.cmu.queue ++ [m] }
  else s.enter (.ret m.tag m.source m.code .overrun [])

/-- A MGMT frame is received. -/
def receiveMgmt (rx : Rx) (s : State) : State :=
  match parseMgmt rx with
  | some m => if slotTakes s && forThisUnit s m then enqueue m (passMessage rx s) else passMessage rx s
  | none => passMessage rx s

/-- A TIME frame is received. -/
def receiveTime (rx : Rx) (s : State) : State :=
  match parseTime rx with
  | some b => if slotTakes s then takeTime b (passMessage rx s) else passMessage rx s
  | none => passMessage rx s

/-! ## RELEASE and EMPTY (R160, R161, R162) -/

/-- A valid RELEASE or EMPTY acts in GOOD only, in its slot (R158, R160). -/
def releaseSlot (s : State) : Bool := s.rif.slotOpen && s.rif.recv == .good

/-- The conditions of R161 for taking a RELEASE. -/
def takesRelease (s : State) : Bool :=
  s.rif.joined && s.rif.reporting && !s.cmu.reports.isEmpty && !s.rif.held

/-- The records that the REPORT frame takes: at most 12, in 59 words after the first body word (R161). -/
def reportCount (s : State) : Nat := fitCount 12 59 s.cmu.reports

/-- RIF takes the RELEASE: the records leave in a REPORT frame in its place, and the release is held (R161). -/
def takeRelease (s : State) : State :=
  let n := reportCount s
  let frame := sealWords (reportWords s.rif.addr s.cmu.overflow (s.cmu.reports.take n))
  (s.setRif { s.rif with held := true, out := some frame }).setCmu { s.cmu with reports := s.cmu.reports.drop n }

/-- The unit joins, with RING_JOINED (R160). -/
def join (s : State) : State :=
  (s.setRif { s.rif with joined := true }).raise .ringJoined none [s.rif.addr.setWidth 16]

/-- A RELEASE is received. -/
def receiveRelease (rx : Rx) (s : State) : State :=
  if isRelease rx && releaseSlot s then
    if s.rif.joined then (if takesRelease s then takeRelease (passMessage rx s) else passMessage rx s)
    else join (passMessage rx s)
  else passMessage rx s

/-- An EMPTY is received; with a release held it leaves as that RELEASE (R162). -/
def receiveEmpty (rx : Rx) (s : State) : State :=
  if isEmpty rx && releaseSlot s && s.rif.held then
    let s1 := passMessage rx s
    s1.setRif { s1.rif with held := false, out := some (sealWords [5]) }
  else passMessage rx s

/-! ## Meanings -/

/-- SAMPLE_FRAME -/
def execSampleFrame (rx : Rx) (s : State) : Result := .next (whileRunning (receiveSample rx) s)

/-- MISSED_FRAME -/
def execMissedFrame (s : State) : Result := .next (whileCounting missFrame s)

/-- LOCAL_PACE_FRAME -/
def execLocalPaceFrame (s : State) : Result := .next (whileCounting localFrame s)

/-- LOSS_TIMER_EXPIRY -/
def execLossTimerExpiry (s : State) : Result := .next (whileCounting lossExpiry s)

/-- MGMT_FRAME -/
def execMgmtFrame (rx : Rx) (s : State) : Result := .next (whileRunning (receiveMgmt rx) s)

/-- TIME_FRAME -/
def execTimeFrame (rx : Rx) (s : State) : Result := .next (whileRunning (receiveTime rx) s)

/-- RELEASE_FRAME -/
def execReleaseFrame (rx : Rx) (s : State) : Result := .next (whileRunning (receiveRelease rx) s)

/-- EMPTY_FRAME -/
def execEmptyFrame (rx : Rx) (s : State) : Result := .next (whileRunning (receiveEmpty rx) s)

/-! ## RESTART (R164) -/

/-- RIF at RESTART: reporting set, the rest kept. -/
def Rif.restart (r : Rif) : Rif := { r with reporting := true }

end Sys2Proof.Machine
end

