-- ==== Sys2Proof/Machine/Commands.lean ====
section
/-! DEFINITION. The Command Unit (10_commands_and_reports.md): the execution of the head of the Command Queue, and the twenty
commands with UNKNOWN_COMMAND. -/
namespace Sys2Proof.Machine

/-! ## Execution (R166, R168) -/

/-- The return record is built and enters the Report Queue, and the frame leaves the Command Queue (R165, R168). -/
def finishCommand (m : Mgmt) (r : State × Answer) : State :=
  (r.1.setCmu { r.1.cmu with queue := r.1.cmu.queue.tail }).enter (.ret m.tag m.source m.code r.2.outcome r.2.data)

/-- The head frame, whose code names command c, is tested (R166 tests 2 to 4) and handed to its block. -/
def runCommand (c : Cmd) (body : Mgmt → State → State × Answer) (m : Mgmt) (s : State) : State :=
  match precheck c m with
  | some a => finishCommand m (s, a)
  | none => finishCommand m (body m s)

/-- The step in which CMU executes command c: its frame stands at the head of the Command Queue; elsewhere nothing happens
(R166; log 4). -/
def serve (c : Cmd) (body : Mgmt → State → State × Answer) (s : State) : State :=
  match s.cmu.queue with
  | [] => s
  | m :: _ => if Cmd.ofCode m.code = some c then runCommand c body m s else s

/-! ## STATUS (R170) -/

/-- STATUS: the 16 status words. -/
def statusBody (_ : Mgmt) (s : State) : State × Answer := (s, answer .done (statusWords s))

/-- STATUS -/
def execStatus (s : State) : Result := .next (whileRunning (serve .status statusBody) s)

/-! ## SWITCH and WITHDRAW (R60, R63) -/

/-- Checks 1 to 4 of R60. -/
def switchRefusal (p : SwitchParams) (s : State) : Option OutcomeCode :=
  if s.pst.isValid p.target = false then some .notValid
  else if s.dsy.ilkClosed = false then some .interlock
  else if s.txe.array.inFlight then some .busy
  else if p.mode = .blend ∧ blendBarred s p.target = true then some .notPermitted
  else none

/-- The Armed Request of an accepted SWITCH. -/
def armedOf (p : SwitchParams) (f : FrameNum) : Armed :=
  { target := p.target, mode := p.mode, frame := f, joint := p.joint, down := p.down, up := p.up, cause := .command }

/-- The request is armed: an older one is replaced with its notice, and in MUTED the resume pattern is cleared (R60). -/
def arm (a : Armed) (s : State) : State :=
  let s1 := (withdraw .replaced s).setArmed (some a)
  match s1.txe.array with
  | .muted _ => s1.setArray (.muted none)
  | .unset | .active _ | .rampDown _ | .switching _ | .settle _ _ | .readyUp _ _ | .rampUp _ _ | .halted _ | .muting => s1

/-- SWITCH (R60). -/
def switchBody (m : Mgmt) (s : State) : State × Answer :=
  let p := switchParams m
  match switchRefusal p s with
  | some o => (s, answer o [])
  | none =>
    match resolveFrame s.txe.frame p.frame with
    | .error o => (s, answer o [])
    | .ok f =>
      if s.txe.array = .active p.target ∧ s.txe.armed = none then (s, answer .done [1])
      else (arm (armedOf p f) s, answer .armed (word p.target.val :: twoWords f))

/-- SWITCH -/
def execSwitch (s : State) : Result := .next (whileRunning (serve .switch switchBody) s)

/-- WITHDRAW (R63). -/
def withdrawBody (_ : Mgmt) (s : State) : State × Answer :=
  match s.txe.armed with
  | none => (s, answer .wrongState [])
  | some a => (s.setArmed none, answer .done (word a.target.val :: twoWords a.frame))

/-- WITHDRAW -/
def execWithdraw (s : State) : Result := .next (whileRunning (serve .withdraw withdrawBody) s)

/-! ## GO (R77) -/

/-- GO. -/
def goBody (m : Mgmt) (s : State) : State × Answer :=
  match s.txe.array with
  | .readyUp c (.awaiting _) =>
    match resolveFrame s.txe.frame (goFrame m) with
    | .error o => (s, answer o [])
    | .ok f => (s.setArray (.readyUp c (.taken f)), answer .done (twoWords f))
  | .rampDown _ | .switching _ | .settle _ _ => (s, answer .notReady [])
  | .readyUp _ (.taken _) | .unset | .active _ | .rampUp _ _ | .halted _ | .muting | .muted _ => (s, answer .wrongState [])

/-- GO -/
def execGo (s : State) : Result := .next (whileRunning (serve .go goBody) s)

/-! ## CONTINUE and RETREAT (R90 to R92) -/

/-- The context of the restarted transition: the halt context's fields, no blend towers, the sets afresh (R91; its ramp-down
length is never used: log 27). -/
def continueContext (h : HaltContext) (s : State) : TxContext :=
  formContext s h.cause h.source h.target h.mode h.joint Config.muteRamp h.upLen 0

/-- The halt count of the newest record. -/
def Txe.newestHalts (x : Txe) : Nat := (x.history.head?.map (·.halts)).getD 0

/-- The steps of R91; the halt count and the reason of TX_CONTINUED are those of the halt left (log 22). CONTINUE tells MON and
SCU nothing that changes them (R108, R132). -/
def continueHalted (h : HaltContext) (s : State) : State :=
  let s1 := withdraw .replaced s
  let s2 := enterSwitching (continueContext h s1) s1
  s2.raise .txContinued (subjectOf h.target.val) [h.seq, word s1.txe.newestHalts, word h.reason.code]

/-- CONTINUE (R90). -/
def continueBody (_ : Mgmt) (s : State) : State × Answer :=
  match s.txe.array.haltContext with
  | none => (s, answer .wrongState [])
  | some h =>
    if s.dsy.ilkClosed = false then (s, answer .interlock [])
    else if s.dsy.allAtRest = false then (s, answer .busy [])
    else (continueHalted h s, answer .started [h.seq])

/-- CONTINUE -/
def execContinue (s : State) : Result := .next (whileRunning (serve .continueTx continueBody) s)

/-- The steps of R92. -/
def retreatTo (k : Slot) (s : State) : State :=
  let s1 := closeRecord .abandoned s.txe.now (withdraw .replaced s)
  launch (plainContext s1 .retreat k) s1.txe.now s1

/-- RETREAT (R92). -/
def retreatBody (_ : Mgmt) (s : State) : State × Answer :=
  match s.txe.array.haltContext with
  | none => (s, answer .wrongState [])
  | some h =>
    if s.dsy.ilkClosed = false then (s, answer .interlock [])
    else match h.source with
      | none => (s, answer .wrongState [])
      | some k =>
        if s.dsy.allAtRest = false then (s, answer .busy [])
        else (retreatTo k s, answer .started [s.txe.seq])

/-- RETREAT -/
def execRetreat (s : State) : Result := .next (whileRunning (serve .retreat retreatBody) s)

/-! ## MUTE (R94) -/

/-- The array is in MUTING. -/
def ArrayState.isMuting : ArrayState → Bool
  | .muting => true
  | .unset | .active _ | .rampDown _ | .switching _ | .settle _ _ | .readyUp _ _ | .rampUp _ _ | .halted _
  | .muted _ => false

/-- MUTE: STARTED where it enters MUTING, DONE elsewhere. -/
def muteBody (m : Mgmt) (s : State) : State × Answer :=
  let t := muteArray (muteLength m) (withdraw .mute s)
  (t, answer (if !s.txe.array.isMuting && t.txe.array.isMuting then .started else .done) [])

/-- MUTE -/
def execMute (s : State) : Result := .next (whileRunning (serve .mute muteBody) s)

/-! ## MOVE (R50) -/

/-- UNSET or MUTED. -/
def ArrayState.allowsMove : ArrayState → Bool
  | .unset | .muted _ => true
  | .active _ | .rampDown _ | .switching _ | .settle _ _ | .readyUp _ _ | .rampUp _ _ | .halted _ | .muting => false

/-- The outcome a move request's answer gives. -/
def MoveAnswer.outcome : MoveAnswer → OutcomeCode
  | .notValid => .notValid
  | .done _ => .done
  | .started => .started
  | .interlock => .interlock

/-- MOVE. A confirmation at the take is reported to TXE, which in UNSET and MUTED does nothing on it (R75). -/
def moveBody (m : Mgmt) (s : State) : State × Answer :=
  if s.txe.array.allowsMove then
    let r := moveRequest (moveParams m).1 (moveParams m).2 s
    (r.1, answer r.2.outcome [])
  else (s, answer .wrongState [])

/-- MOVE -/
def execMove (s : State) : Result := .next (whileRunning (serve .move moveBody) s)

/-! ## ACK_FAULT and TRIM_CLEAR (R116, R120) -/

/-- ACK_FAULT: DONE with the number of towers that were in FAULT. -/
def ackFaultBody (_ : Mgmt) (s : State) : State × Answer :=
  (s.setMon s.mon.ackFault, answer .done [word s.mon.faults])

/-- ACK_FAULT -/
def execAckFault (s : State) : Result := .next (whileRunning (serve .ackFault ackFaultBody) s)

/-- The slot TRIM_CLEAR names. -/
def slotParam (m : Mgmt) : Slot := Fin.ofNat 16 (m.num 0)

/-- TRIM_CLEAR: the trims of the slot, and for the active slot the limit-noticed flags (R119, R120; log 29). -/
def trimClearBody (m : Mgmt) (s : State) : State × Answer :=
  let s1 := s.setPst (s.pst.clearTrims (slotParam m))
  (if s.txe.array.activeSlot = some (slotParam m) then s1.setMon s1.mon.clearLimits else s1, answer .done [])

/-- TRIM_CLEAR -/
def execTrimClear (s : State) : Result := .next (whileRunning (serve .trimClear trimClearBody) s)

/-! ## SCHEDULE_HOLD (R133, R134) -/

/-- SCHEDULE_HOLD: bit 0 ON, bit 1 catch-up (11.2); OFF names the held-due entry it ended (log 14). -/
def scheduleHoldBody (m : Mgmt) (s : State) : State × Answer :=
  if (m.param 0).getLsbD 0 then (holdOn s, answer .done [])
  else (holdOff ((m.param 0).getLsbD 1) s, answer .done (holdOffNames s.scu))

/-- SCHEDULE_HOLD -/
def execScheduleHold (s : State) : Result := .next (whileRunning (serve .scheduleHold scheduleHoldBody) s)

/-! ## Loading (R138 to R149) -/

/-- CLAIM -/
def execClaim (s : State) : Result := .next (whileRunning (serve .claim claimBody) s)

/-- LOAD -/
def execLoad (s : State) : Result := .next (whileRunning (serve .load loadBody) s)

/-- COMMIT -/
def execCommit (s : State) : Result := .next (whileRunning (serve .commit commitBody) s)

/-- FINISH -/
def execFinish (s : State) : Result := .next (whileRunning (serve .finish finishBody) s)

/-- UNCLAIM -/
def execUnclaim (s : State) : Result := .next (whileRunning (serve .unclaim unclaimBody) s)

/-- READ -/
def execRead (s : State) : Result := .next (whileRunning (serve .read readBody) s)

/-! ## REPORTING and CLEAR_OVERFLOW (R163, R173) -/

/-- REPORTING: 0 OFF, 1 ON. -/
def reportingBody (m : Mgmt) (s : State) : State × Answer :=
  (s.setRif { s.rif with reporting := m.num 0 == 1 }, answer .done [])

/-- REPORTING -/
def execReporting (s : State) : Result := .next (whileRunning (serve .reporting reportingBody) s)

/-- CLEAR_OVERFLOW: the flag cleared, its former value answered. -/
def clearOverflowBody (_ : Mgmt) (s : State) : State × Answer :=
  (s.setCmu { s.cmu with overflow := false }, answer .done [word (flagBit s.cmu.overflow 0)])

/-- CLEAR_OVERFLOW -/
def execClearOverflow (s : State) : Result := .next (whileRunning (serve .clearOverflow clearOverflowBody) s)

/-! ## RESTART (R175) -/

/-- TXE at RESTART: UNSET, nothing armed, an OPEN newest record closed ABANDONED, the rest kept (R57). -/
def Txe.restart (x : Txe) : Txe :=
  { x with array := .unset, armed := none, history := closeNewest .abandoned x.now x.history }

/-- CTU at RESTART: the guard NONE, the rest kept (R55). -/
def Ctu.restart (u : Ctu) : Ctu := { u with guard := none }

/-- Steps 1 to 3 of R175: the frames behind the head and the records discarded, the flag cleared. -/
def Cmu.restart (c : Cmu) : Cmu := { queue := c.queue.take 1, reports := [], overflow := false }

/-- Every block acts on RESTART as its chapter gives (R175 step 4); no block raises a notice, and TXE takes it before the
at-rest changes of DSY's forcing (R57). -/
def restartBlocks (s : State) : State :=
  { s with
    rif := s.rif.restart, cmu := s.cmu.restart, pst := s.pst.restart, ldu := Ldu.reset, txe := s.txe.restart,
    dsy := s.dsy.restart, ctu := s.ctu.restart, mon := s.mon.restart, scu := s.scu.restart }

/-- RESTART: DONE with the number of records and of frames discarded. -/
def restartBody (_ : Mgmt) (s : State) : State × Answer :=
  (restartBlocks s, answer .done [word s.cmu.reports.length, word (s.cmu.queue.length - 1)])

/-- RESTART -/
def execRestart (s : State) : Result := .next (whileRunning (serve .restart restartBody) s)

/-! ## UNKNOWN_COMMAND (R166 test 1) -/

/-- A head frame whose code is none of the twenty is refused UNKNOWN. -/
def serveUnknown (s : State) : State :=
  match s.cmu.queue with
  | [] => s
  | m :: _ => if Cmd.ofCode m.code = none then finishCommand m (s, answer .unknown []) else s

/-- UNKNOWN_COMMAND -/
def execUnknownCommand (s : State) : Result := .next (whileRunning serveUnknown s)

end Sys2Proof.Machine
end

