-- ==== Sys2Proof/Machine/Events.lean ====
section
/-! DEFINITION. What reaches the unit by its pins, its monitor port and its timers: power and clock, the interlock, cabinet
READY, the auxiliary contacts, and the expiries. -/
namespace Sys2Proof.Machine

/-! ## Power and clock (R177, R174, R158) -/

/-- The unit address that the straps give (R159). -/
def strapAddress (straps : BitVec 4) : BitVec 5 := straps.setWidth 5 + 1

/-- Every block at its power-on state; the input lines, REFCLK and the waiting commands stay as they are (R177). -/
def powerOn (straps : BitVec 4) (s : State) : State :=
  { State.reset with
    refclk := s.refclk
    rif := { Rif.reset with addr := strapAddress straps }
    cmu := { Cmu.reset with reports := [unitStarted (strapAddress straps)] }
    dsy := s.dsy.powerOn
    ctu := { units := s.ctu.units.map ContactorUnit.powerOn, guard := none }
    pending := s.pending }

/-- POWER_ON_RESET -/
def execPowerOnReset (straps : BitVec 4) (s : State) : Result := .next (powerOn straps s)

/-- DSY while RESET is asserted: nothing driven, no timer running, the lines as they are. -/
def Dsy.silent (d : Dsy) : Dsy :=
  { Dsy.reset with towers := d.towers.map fun x => { Tower.reset with rdyLine := x.rdyLine }, ilkLine := d.ilkLine }

/-- A contactor number while RESET is asserted: undefined, its command line low, its inputs as they are. -/
def ContactorUnit.silent (u : ContactorUnit) : ContactorUnit :=
  { ContactorUnit.reset with openLine := u.openLine, closedLine := u.closedLine }

/-- While RESET is asserted or power is off: BYP de-energised, command lines low, ports and RING OUT silent (R177, R158; what
else the unit holds then: log 7). -/
def resetHeld (s : State) : State :=
  { State.reset with
    running := false
    refclk := s.refclk
    rif := { Rif.reset with addr := s.rif.addr, byp := false }
    cmu := { Cmu.reset with reports := [] }
    dsy := s.dsy.silent
    ctu := { units := s.ctu.units.map ContactorUnit.silent, guard := none }
    pending := s.pending }

/-- RESET_ASSERTED -/
def execResetAsserted (s : State) : Result := .next (resetHeld s)

/-- The REFCLK input (R177). -/
def State.setRefclk (s : State) (on : Bool) : State := { s with refclk := on }

/-- REFCLK_STOPPED: every interval-timer quantity stops; no notice. -/
def execRefclkStopped (s : State) : Result := .next (s.setRefclk false)

/-- REFCLK_RETURNED: counting resumes. -/
def execRefclkReturned (s : State) : Result := .next (s.setRefclk true)

/-! ## Interlock (R34, R35, R103) -/

/-- The line shows open: the line, and any qualification stopped. -/
def Dsy.ilkOpens (d : Dsy) : Dsy := { d with ilkLine := false, ilkTimer := none }

/-- The qualified state becomes OPEN: the notice, DSY's forcing, then TXE's response and the at-rest changes of the forcing (R34,
R35, R103). A ramp that stood at amplitude zero leaves its tower at rest here, before the next frame, so TX_AT_REST may be raised
here. DESIGN CHOICE, log 39. -/
def interlockOpens (s : State) : State :=
  let s1 := (s.setDsy { s.dsy with ilkClosed := false }).raise .interlockOpened none []
  takeAtRest (takeInterlock (s1.setDsy (s1.dsy.forceZero (BitVec.allOnes 8))))

/-- The ILK line shows the interlock open. While RESET is asserted only the line is followed (log 7). -/
def ilkLineOpen (s : State) : State :=
  let s1 := s.setDsy s.dsy.ilkOpens
  if s.running && s.dsy.ilkClosed then interlockOpens s1 else s1

/-- INTERLOCK_OPENING -/
def execInterlockOpening (s : State) : Result := .next (ilkLineOpen s)

/-- The ILK line shows the interlock closed: a qualification starts, or goes on (R34). -/
def ilkLineClosed (s : State) : State :=
  s.setDsy { s.dsy with
    ilkLine := true
    ilkTimer := if s.running && !s.dsy.ilkClosed then some (s.dsy.ilkTimer.getD 0) else s.dsy.ilkTimer }

/-- INTERLOCK_LINE_CLOSED -/
def execInterlockLineClosed (s : State) : Result := .next (ilkLineClosed s)

/-- The qualification ends: CLOSED, with its notice; nothing else changes (R34, R104). -/
def ilkQualified (s : State) : State :=
  if s.dsy.ilkTimer.isSome && !s.dsy.ilkClosed then
    (s.setDsy { s.dsy with ilkClosed := true, ilkTimer := none }).raise .interlockClosed none []
  else s

/-- INTERLOCK_QUALIFIED -/
def execInterlockQualified (s : State) : Result := .next (whileCounting ilkQualified s)

/-! ## Cabinet READY (R36) -/

/-- Only the line of tower t. -/
def Dsy.rdyLineOnly (d : Dsy) (t : TowerIx) (level : Bool) : Dsy :=
  { d with towers := modifyAt d.towers t fun x => { x with rdyLine := level } }

/-- RDY_LINE_CHANGE -/
def execRdyLineChange (t : TowerIx) (level : Bool) (s : State) : Result :=
  .next (s.setDsy (if s.running then s.dsy.rdyLevel t level else s.dsy.rdyLineOnly t level))

/-- The debounce of tower t runs toward a level other than its status. -/
def Tower.rdyPending (x : Tower) : Bool := x.debounce.isSome && x.rdyLine != x.ready

/-- The status takes the line's level and the debounce ends. -/
def Dsy.rdySettled (d : Dsy) (t : TowerIx) : Dsy :=
  { d with towers := modifyAt d.towers t fun x => { x with ready := x.rdyLine, debounce := none } }

/-- The debounce of tower t completes: the status, its notice, and TXE is told (R36). -/
def rdyDebounced (t : TowerIx) (s : State) : State :=
  if s.dsy.towers[t].rdyPending then
    let s1 := s.setDsy (s.dsy.rdySettled t)
    if s.dsy.towers[t].rdyLine then s1.raise .cabinetReady (subjectOf t.val) []
    else takeCabinetLoss t (s1.raise .cabinetFault (subjectOf t.val) [])
  else s

/-- CABINET_DEBOUNCE_EXPIRY -/
def execCabinetDebounceExpiry (t : TowerIx) (s : State) : Result := .next (whileCounting (rdyDebounced t) s)

/-! ## Auxiliary contacts (R41, R45 to R48) -/

/-- Contactor number c's record in CTU changed. -/
def State.onUnit (s : State) (c : ContactorIx) (f : ContactorUnit → ContactorUnit) : State :=
  s.setCtu { s.ctu with units := modifyAt s.ctu.units c f }

/-- Only the raw line of an input. -/
def ContactorUnit.auxLineOnly (u : ContactorUnit) (i : AuxInput) (asserted : Bool) : ContactorUnit :=
  match i with
  | .showsOpen => { u with openLine := asserted }
  | .showsClosed => { u with closedLine := asserted }

/-- AUX_INPUT_CHANGE -/
def execAuxInputChange (c : ContactorIx) (i : AuxInput) (asserted : Bool) (s : State) : Result :=
  .next (s.onUnit c fun u => if s.running then u.auxLevel i asserted else u.auxLineOnly i asserted)

/-- The reading of contactor c has changed: its state logic takes the change if it is defined, and TXE the report (R41). -/
def readingChanged (c : ContactorIx) (s : State) : State :=
  match s.ctu.units[c].entry with
  | none => s
  | some e => takeReport c (takeReading c e s).2 (takeReading c e s).1

/-- The debounce of an input completes (R41). -/
def auxDebounced (c : ContactorIx) (i : AuxInput) (s : State) : State :=
  if s.ctu.units[c].debouncing i then
    let s1 := s.onUnit c fun u => u.debounced i
    if s1.ctu.units[c].reading = s.ctu.units[c].reading then s1 else readingChanged c s1
  else s

/-- AUX_DEBOUNCE_EXPIRY -/
def execAuxDebounceExpiry (c : ContactorIx) (i : AuxInput) (s : State) : Result :=
  .next (whileCounting (auxDebounced c i) s)

/-! ## Travel limit (R46) -/

/-- The travel limit of contactor c runs out: STUCK, its notice, and the stuck report. -/
def travelExpired (c : ContactorIx) (s : State) : State :=
  match s.ctu.units[c].entry with
  | none => s
  | some e =>
    if e.state.travel.isSome then
      takeStuck c ((s.setContactor c { e with state := .stuck }).raise .contactorStuck (subjectOf c.val)
        [word e.commanded.code, word s.ctu.units[c].reading.code])
    else s

/-- TRAVEL_LIMIT_EXPIRY -/
def execTravelLimitExpiry (c : ContactorIx) (s : State) : Result := .next (whileCounting (travelExpired c) s)

/-! ## Settle and gate (R72, R78) -/

/-- The settle timer expires. -/
def settleExpired (s : State) : State :=
  match s.txe.array with
  | .settle c _ => afterSettle c s
  | .unset | .active _ | .rampDown _ | .switching _ | .readyUp _ _ | .rampUp _ _ | .halted _ | .muting | .muted _ => s

/-- SETTLE_TIMER_EXPIRY -/
def execSettleTimerExpiry (s : State) : Result := .next (whileCounting settleExpired s)

/-- The gate timer expires in READY_UP awaiting GO. -/
def gateExpired (s : State) : State :=
  match s.txe.array with
  | .readyUp _ (.awaiting _) => halt .gate .none s
  | .readyUp _ (.taken _) | .unset | .active _ | .rampDown _ | .switching _ | .settle _ _ | .rampUp _ _ | .halted _
  | .muting | .muted _ => s

/-- GATE_TIMER_EXPIRY -/
def execGateTimerExpiry (s : State) : Result := .next (whileCounting gateExpired s)

/-! ## Check and lapse (R147, R140) -/

/-- CHECK_COMPLETION: the checker's own event, not an interval-timer quantity (log 19). -/
def execCheckCompletion (t : Target) (s : State) : Result := .next (whileRunning (completeCheck t) s)

/-- CLAIM_LAPSE -/
def execClaimLapse (t : Target) (s : State) : Result := .next (whileCounting (lapse t) s)

/-! ## Monitor and clock (R105, R106, R109, R123) -/

/-- MONITOR_RECORD -/
def execMonitorRecord (rx : Rx) (s : State) : Result := .next (whileRunning (takeRecord rx) s)

/-- ABSENCE_TIMER_EXPIRY -/
def execAbsenceTimerExpiry (s : State) : Result := .next (whileCounting absenceExpiry s)

/-- HOLD_OFF_EXPIRY -/
def execHoldOffExpiry (s : State) : Result := .next (whileCounting holdOffEnd s)

/-- STALE_TIMER_EXPIRY -/
def execStaleTimerExpiry (s : State) : Result := .next (whileCounting staleExpiry s)

end Sys2Proof.Machine
end

