-- ==== Sys2Proof/Machine/Dispatch.lean ====
section
/-! DEFINITION. The meaning of every command: one arm per constructor of Instr, each one call of its meaning. -/
namespace Sys2Proof.Machine

/-- The effect of a command on everything but the queue of waiting commands. -/
def exec (i : Instr) (s : State) : Host.Outcome State Fault Refusal :=
  match i with
  | .powerOnReset straps => Sys2Proof.Machine.execPowerOnReset straps s
  | .resetAsserted => Sys2Proof.Machine.execResetAsserted s
  | .refclkStopped => Sys2Proof.Machine.execRefclkStopped s
  | .refclkReturned => Sys2Proof.Machine.execRefclkReturned s
  | .sampleFrame rx => Sys2Proof.Machine.execSampleFrame rx s
  | .missedFrame => Sys2Proof.Machine.execMissedFrame s
  | .localPaceFrame => Sys2Proof.Machine.execLocalPaceFrame s
  | .lossTimerExpiry => Sys2Proof.Machine.execLossTimerExpiry s
  | .mgmtFrame rx => Sys2Proof.Machine.execMgmtFrame rx s
  | .timeFrame rx => Sys2Proof.Machine.execTimeFrame rx s
  | .releaseFrame rx => Sys2Proof.Machine.execReleaseFrame rx s
  | .emptyFrame rx => Sys2Proof.Machine.execEmptyFrame rx s
  | .status => Sys2Proof.Machine.execStatus s
  | .switch => Sys2Proof.Machine.execSwitch s
  | .withdraw => Sys2Proof.Machine.execWithdraw s
  | .go => Sys2Proof.Machine.execGo s
  | .continueTx => Sys2Proof.Machine.execContinue s
  | .retreat => Sys2Proof.Machine.execRetreat s
  | .mute => Sys2Proof.Machine.execMute s
  | .move => Sys2Proof.Machine.execMove s
  | .ackFault => Sys2Proof.Machine.execAckFault s
  | .trimClear => Sys2Proof.Machine.execTrimClear s
  | .scheduleHold => Sys2Proof.Machine.execScheduleHold s
  | .claim => Sys2Proof.Machine.execClaim s
  | .load => Sys2Proof.Machine.execLoad s
  | .commit => Sys2Proof.Machine.execCommit s
  | .finish => Sys2Proof.Machine.execFinish s
  | .unclaim => Sys2Proof.Machine.execUnclaim s
  | .read => Sys2Proof.Machine.execRead s
  | .reporting => Sys2Proof.Machine.execReporting s
  | .clearOverflow => Sys2Proof.Machine.execClearOverflow s
  | .restart => Sys2Proof.Machine.execRestart s
  | .interlockOpening => Sys2Proof.Machine.execInterlockOpening s
  | .interlockLineClosed => Sys2Proof.Machine.execInterlockLineClosed s
  | .interlockQualified => Sys2Proof.Machine.execInterlockQualified s
  | .rdyLineChange t level => Sys2Proof.Machine.execRdyLineChange t level s
  | .cabinetDebounceExpiry t => Sys2Proof.Machine.execCabinetDebounceExpiry t s
  | .auxInputChange c input asserted => Sys2Proof.Machine.execAuxInputChange c input asserted s
  | .auxDebounceExpiry c input => Sys2Proof.Machine.execAuxDebounceExpiry c input s
  | .travelLimitExpiry c => Sys2Proof.Machine.execTravelLimitExpiry c s
  | .settleTimerExpiry => Sys2Proof.Machine.execSettleTimerExpiry s
  | .gateTimerExpiry => Sys2Proof.Machine.execGateTimerExpiry s
  | .checkCompletion target => Sys2Proof.Machine.execCheckCompletion target s
  | .claimLapse target => Sys2Proof.Machine.execClaimLapse target s
  | .monitorRecord rx => Sys2Proof.Machine.execMonitorRecord rx s
  | .absenceTimerExpiry => Sys2Proof.Machine.execAbsenceTimerExpiry s
  | .holdOffExpiry => Sys2Proof.Machine.execHoldOffExpiry s
  | .staleTimerExpiry => Sys2Proof.Machine.execStaleTimerExpiry s
  | .unknownCommand => Sys2Proof.Machine.execUnknownCommand s

end Sys2Proof.Machine
end

