-- ==== Sys2Proof/Machine/Timers.lean ====
section
/-! DEFINITION. What the unit does of its own when no command waits: CMU turns to the head of its Command Queue, and otherwise
the interval timer counts on by 250 µs and every timer at its limit gives its expiry (logs 1 to 3). -/
namespace Sys2Proof.Machine

/-! ## Counting (00_scope.md, section 6) -/

/-- A running timer one further. -/
def tickTimer (t : Option Nat) : Option Nat := t.map (· + 1)

/-- A running timer has reached its limit. -/
def reached (limit : Nat) (t : Option Nat) : Bool :=
  match t with
  | some n => limit ≤ n
  | none => false

/-- A travel timer one further. -/
def ContactorState.tick : ContactorState → ContactorState
  | .toOpen n => .toOpen (n + 1)
  | .toClosed n => .toClosed (n + 1)
  | .opened => .opened
  | .closed => .closed
  | .stuck => .stuck
  | .disagree => .disagree

/-- One ms for a contactor number: its two debounces and its travel. -/
def ContactorUnit.tick (u : ContactorUnit) : ContactorUnit :=
  { u with openTimer := tickTimer u.openTimer, closedTimer := tickTimer u.closedTimer,
           entry := u.entry.map fun e => { e with state := e.state.tick } }

/-- One ms for the settle timer and the gate timer. -/
def ArrayState.tick : ArrayState → ArrayState
  | .settle c n => .settle c (n + 1)
  | .readyUp c (.awaiting n) => .readyUp c (.awaiting (n + 1))
  | .readyUp c (.taken f) => .readyUp c (.taken f)
  | .unset => .unset
  | .active p => .active p
  | .rampDown c => .rampDown c
  | .switching c => .switching c
  | .rampUp c e => .rampUp c e
  | .halted h => .halted h
  | .muting => .muting
  | .muted r => .muted r

/-- One ms for a claim: its lapse timer, or its check. -/
def Claim.tick (c : Claim) : Claim :=
  { c with phase := match c.phase with
      | .loading n => .loading (n + 1)
      | .checking w n => .checking w (n + 1) }

/-- One ms for DSY: the interlock qualification and the READY debounces. -/
def Dsy.tick (d : Dsy) : Dsy :=
  { d with ilkTimer := tickTimer d.ilkTimer, towers := d.towers.map fun x => { x with debounce := tickTimer x.debounce } }

/-- One ms for every timer that counts in ms. -/
def tickMs (s : State) : State :=
  { s with
    dsy := s.dsy.tick
    ctu := { s.ctu with units := s.ctu.units.map ContactorUnit.tick }
    txe := { s.txe with array := s.txe.array.tick }
    ldu := { s.ldu with claims := s.ldu.claims.map fun c => c.map Claim.tick }
    mon := { s.mon with absence := tickTimer s.mon.absence, holdOff := tickTimer s.mon.holdOff }
    scu := { s.scu with stale := tickTimer s.scu.stale } }

/-- One quarter of a ms for the loss timer and DSY's pace. -/
def tickQuarter (s : State) : State :=
  { s with
    quarter := (s.quarter + 1) % 4
    rif := { s.rif with loss := tickTimer s.rif.loss }
    dsy := { s.dsy with paceLeft := s.dsy.paceLeft - 1 } }

/-! ## Expiries due -/

/-- A command when a condition holds. -/
def dueIf (b : Bool) (c : Instr) : List Instr := if b then [c] else []

/-- The travel timer of a contactor has reached its limit (R46). -/
def ContactorUnit.travelDue (u : ContactorUnit) : Bool :=
  match u.entry with
  | some e => reached e.limit e.state.travel
  | none => false

/-- The settle timer has reached the target's settle time (R72). -/
def settleTimeDue (s : State) : Bool :=
  match s.txe.array with
  | .settle c n => recSettle (s.recordOf c.target) ≤ n
  | .unset | .active _ | .rampDown _ | .switching _ | .readyUp _ _ | .rampUp _ _ | .halted _ | .muting | .muted _ => false

/-- The gate timer has reached the gate timeout (R76). -/
def gateDue (s : State) : Bool :=
  match s.txe.array with
  | .readyUp c (.awaiting n) => c.joint.getD 0 ≤ n
  | .readyUp _ (.taken _) | .unset | .active _ | .rampDown _ | .switching _ | .settle _ _ | .rampUp _ _ | .halted _
  | .muting | .muted _ => false

/-- A target's check ends, or its claim lapses (R146, R140). -/
def claimDue (s : State) (t : Target) : List Instr :=
  match s.ldu.claims[t] with
  | none => []
  | some c => match c.phase with
    | .loading n => dueIf (Config.lapseMs ≤ n) (.claimLapse t)
    | .checking _ n => dueIf (Config.checkMs ≤ n) (.checkCompletion t)

/-- The hold-off timer has reached the active pattern's hold-off (R109). -/
def holdOffDue (s : State) : Bool :=
  match s.mon.active with
  | some p => reached (recHoldOff (s.recordOf p)) s.mon.holdOff
  | none => s.mon.holdOff.isSome

/-- The expiries of the timers that count in ms, in the model's order. For the two debounces of one contactor that end in one
tick, which R41 does not order, AXOn comes first. DESIGN CHOICE, log 3. -/
def dueMs (s : State) : List Instr :=
  dueIf (reached Config.qualificationMs s.dsy.ilkTimer) .interlockQualified
  ++ allTowers.flatMap (fun t => dueIf (reached Config.cabinetDebounceMs s.dsy.towers[t].debounce) (.cabinetDebounceExpiry t))
  ++ allContactors.flatMap (fun c =>
      dueIf (reached Config.auxDebounceMs s.ctu.units[c].openTimer) (.auxDebounceExpiry c .showsOpen)
      ++ dueIf (reached Config.auxDebounceMs s.ctu.units[c].closedTimer) (.auxDebounceExpiry c .showsClosed))
  ++ allContactors.flatMap (fun c => dueIf s.ctu.units[c].travelDue (.travelLimitExpiry c))
  ++ dueIf (settleTimeDue s) .settleTimerExpiry
  ++ dueIf (gateDue s) .gateTimerExpiry
  ++ allTargets.flatMap (claimDue s)
  ++ dueIf (reached Config.absenceMs s.mon.absence) .absenceTimerExpiry
  ++ dueIf (holdOffDue s) .holdOffExpiry
  ++ dueIf (reached Config.staleMs s.scu.stale) .staleTimerExpiry

/-- The loss timer's expiry, then DSY's next frame (R155, R30, R31). -/
def dueQuarter (s : State) : List Instr :=
  dueIf (reached Config.lossQuarters s.rif.loss) .lossTimerExpiry
  ++ dueIf (s.dsy.paceLeft == 0) (if s.dsy.localPace then .localPaceFrame else .missedFrame)

/-! ## The idle step -/

/-- The row of the table that executes a frame with this command code (R166). -/
def rowOf (code : BitVec 8) : Instr :=
  match Cmd.ofCode code with
  | none => .unknownCommand
  | some .status => .status | some .switch => .switch | some .withdraw => .withdraw | some .go => .go
  | some .continueTx => .continueTx | some .retreat => .retreat | some .mute => .mute | some .move => .move
  | some .ackFault => .ackFault | some .trimClear => .trimClear | some .scheduleHold => .scheduleHold
  | some .claim => .claim | some .load => .load | some .commit => .commit | some .finish => .finish
  | some .unclaim => .unclaim | some .read => .read | some .reporting => .reporting
  | some .clearOverflow => .clearOverflow | some .restart => .restart

/-- 250 µs pass: the timers count, and the expiries due wait in the queue. -/
def tick (s : State) : State :=
  let s1 := tickQuarter s
  if s1.quarter = 0 then
    let s2 := tickMs s1
    { s2 with pending := dueMs s2 ++ dueQuarter s2 }
  else { s1 with pending := dueQuarter s1 }

/-- What the unit does on an empty queue: CMU's next command first; then time, while REFCLK runs. -/
def idle (s : State) : State :=
  if s.running then
    match s.cmu.queue with
    | m :: _ => { s with pending := [rowOf m.code] }
    | [] => if s.refclk then tick s else s
  else s

end Sys2Proof.Machine
end

