-- ==== Sys2Proof/Machine/Step.lean ====
section
/-! DEFINITION. One step: the command at the front of the queue, or what the unit does of its own when none waits. -/
namespace Sys2Proof.Machine

/-- Take the command at the front of the queue and run it on the state with the queue's rest; with no command waiting, CMU
turns to its Command Queue or time passes (log 1). -/
def step (s : State) : Host.Outcome State Fault Refusal :=
  match s.pending with
  | [] => .next (idle s)
  | c :: rest => exec c (s.setPending rest)

/-- The state with the command that a table word spells put at the front of its queue; no word spells one (log 5). -/
def State.withFetchWord (s : State) (nbits w : Nat) : State :=
  match decodeTableWord nbits w with
  | none => s
  | some c => s.setPending (c :: s.pending)

end Sys2Proof.Machine
end

