-- ==== Sys2Proof/Safety.lean ====
section
/-! DEFINITION. What the statements are about: the state a served command leaves, the notices at the tail of the Report Queue,
the order of the expiries, and the laws of the machine that every step keeps (spec rules in each docstring). -/
namespace Sys2Proof.Machine

/-! ## Commands of the Command Queue -/

/-- CMU is about to execute frame m as command c: the unit runs, m stands at the head of the Command Queue with c's code, and
passes tests 2 to 4 of R166. -/
abbrev Serves (c : Cmd) (m : Mgmt) (s : State) : Prop :=
  s.running = true ∧ s.cmu.queue.head? = some m ∧ Cmd.ofCode m.code = some c ∧ precheck c m = none

/-- s once frame m has been answered: the frame leaves the Command Queue and its return record enters the Report Queue (R165,
R168). -/
def answered (m : Mgmt) (o : OutcomeCode) (d : List Word) (s : State) : State := finishCommand m (s, answer o d)

/-- An interval-timer event is taken: the unit runs and REFCLK runs (R177). -/
abbrev Counting (s : State) : Prop := s.running = true ∧ s.refclk = true

/-- The rows of the table that are expiries and paces of the interval timer (R177). -/
def isTimerRow : Instr → Bool
  | .missedFrame | .localPaceFrame | .lossTimerExpiry | .interlockQualified | .cabinetDebounceExpiry _
  | .auxDebounceExpiry _ _ | .travelLimitExpiry _ | .settleTimerExpiry | .gateTimerExpiry | .claimLapse _
  | .absenceTimerExpiry | .holdOffExpiry | .staleTimerExpiry => true
  | .powerOnReset _ | .resetAsserted | .refclkStopped | .refclkReturned | .sampleFrame _ | .mgmtFrame _ | .timeFrame _
  | .releaseFrame _ | .emptyFrame _ | .status | .switch | .withdraw | .go | .continueTx | .retreat | .mute | .move
  | .ackFault | .trimClear | .scheduleHold | .claim | .load | .commit | .finish | .unclaim | .read | .reporting
  | .clearOverflow | .restart | .interlockOpening | .interlockLineClosed | .rdyLineChange _ _ | .auxInputChange _ _ _
  | .checkCompletion _ | .monitorRecord _ | .unknownCommand => false

/-! ## Notices -/

/-- The notice ARMED_WITHDRAWN of the Armed Request that stands, if one does, with its reason (R61). -/
def withdrawnNotice (reason : Nat) (s : State) : List Record :=
  s.txe.armed.toList.map fun a => .notice .armedWithdrawn s.stamp (subjectOf a.target.val) none
    ([word reason] ++ twoWords a.frame ++ [word a.cause.code])

/-- The notice SCHEDULE_DUE with MISSED (6) and DISCARDED (11) of the deferred entry, if one stands (R132). -/
def discardedNotice (s : State) : List Record :=
  s.scu.deferred.toList.map fun o => .notice .scheduleDue s.stamp (subjectOf o.entry.val) none
    [word (6 + 256 * 11), word (slotByte (s.scu.table[o.entry].map (·.target))), word o.date.days, 0]

/-- The notice MUTED: the resume pattern or none as its subject, and its cause, COMMAND 1, RING 2 or INTERLOCK 3 (R99). -/
def mutedNotice (resume : Option Slot) (cause : Nat) (s : State) : Record :=
  .notice .muted s.stamp (resume.bind fun p => subjectOf p.val) none [word cause]

/-- The notice TX_HALTED of a halt context (R85). -/
def haltedNotice (h : HaltContext) (s : State) : Record :=
  .notice .txHalted s.stamp (subjectOf h.target.val) none
    [word h.reason.code, word h.step.code, word h.subject.byte, h.seq]

/-- The notice TX_AT_REST of a halt context (R88). -/
def atRestNotice (h : HaltContext) (s : State) : Record :=
  .notice .txAtRest s.stamp (subjectOf h.target.val) none [h.seq]

/-- CMU once these records have entered the Report Queue in their order (R171, R172). -/
def Cmu.enterAll (u : Cmu) (rs : List Record) : Cmu := rs.foldl Cmu.enter u

/-! ## Expiries -/

/-- The expiries of the timers that count quarters of a millisecond, in the order the idle step puts them (the model's: log 3).
Only one of the two frame rows is ever due. -/
def quarterExpiries : List Instr := [.lossTimerExpiry, .missedFrame, .localPaceFrame]

/-- All expiries in the order the idle step puts them (the model's: log 3). -/
def allExpiries : List Instr :=
  [.interlockQualified] ++ (List.finRange 8).map .cabinetDebounceExpiry
  ++ ((List.finRange 24).flatMap fun c => [.auxDebounceExpiry c .showsOpen, .auxDebounceExpiry c .showsClosed])
  ++ (List.finRange 24).map .travelLimitExpiry ++ [.settleTimerExpiry, .gateTimerExpiry]
  ++ ((List.finRange 18).flatMap fun t => [.checkCompletion t, .claimLapse t])
  ++ [.absenceTimerExpiry, .holdOffExpiry, .staleTimerExpiry] ++ quarterExpiries

/-! ## Laws of the queues and the ring -/

/-- At most 4 frames in the Command Queue and 32 records in the Report Queue (R165, R172). -/
abbrev QueueLaw (s : State) : Prop := s.cmu.queue.length ≤ 4 ∧ s.cmu.reports.length ≤ 32

/-- The ring's states fit together: run at most 16, 16 exactly in GOOD, at most 1 in HUNT; the loss timer runs in SYNC and GOOD only; joined and
holding a release only in GOOD; DSY at the local pace in HUNT and only there (R154, R155, R157, R160 to R162, R32). -/
abbrev RingLaw (s : State) : Prop :=
  s.rif.run ≤ 16 ∧ s.rif.lossCount ≤ 65535
  ∧ (s.rif.recv = .good ↔ s.rif.run = 16) ∧ (s.rif.recv = .hunt → s.rif.run ≤ 1)
  ∧ (s.rif.recv = .hunt ↔ s.rif.loss = none)
  ∧ (s.rif.recv = .hunt ↔ s.dsy.localPace = true)
  ∧ (s.rif.joined = true → s.rif.recv = .good)
  ∧ (s.rif.held = true → s.rif.joined = true)

/-! ## Laws of the drive -/

/-- No drive while the interlock stands open or the ring is lost: every tower is under REST (R31, R35). -/
abbrev DriveOffLaw (s : State) : Prop :=
  s.dsy.ilkClosed = false ∨ s.dsy.localPace = true → ∀ t : TowerIx, s.dsy.towers[t].order = .rest

/-- The ends of a ramp lie in the range of applied values. -/
abbrev Ramp.inRange (r : Ramp) : Prop :=
  r.startAmp ≤ 65536 ∧ r.endAmp ≤ 65536 ∧ r.startPhase < 36000 ∧ r.endPhase < 36000

/-- The ramp of an order. -/
def TowerOrder.ramp? : TowerOrder → Option Ramp
  | .ramp r => some r
  | .rest | .follow _ => none

/-- Every tower's applied amplitude is 0 to 65536 and its applied phase 0 to 35999, and so are the ends of its ramp
(02_drive_synthesis_and_tower_ports.md, 2.1). -/
abbrev TowerLaw (s : State) : Prop :=
  ∀ t : TowerIx, s.dsy.towers[t].amp ≤ 65536 ∧ s.dsy.towers[t].phase < 36000
    ∧ ∀ r ∈ s.dsy.towers[t].order.ramp?, r.inRange

/-! ## Laws of the contactors -/

/-- What a contactor's state says of its commanded position and reading (R42): OPEN and CLOSED stand at the commanded position
confirmed by the reading, TO_x travels to the commanded position with the reading not yet agreeing, DISAGREE does not agree. -/
def Contactor.lawful (e : Contactor) (r : Reading) : Bool :=
  match e.state with
  | .opened => e.commanded == .opened && r.agrees e.commanded
  | .closed => e.commanded == .closed && r.agrees e.commanded
  | .toOpen _ => e.commanded == .opened && !r.agrees e.commanded
  | .toClosed _ => e.commanded == .closed && !r.agrees e.commanded
  | .disagree => !r.agrees e.commanded
  | .stuck => true

/-- Every defined contactor's state fits its commanded position and its reading, and while RESET is asserted none is defined
(R42, R177). -/
abbrev ContactorLaw (s : State) : Prop :=
  ∀ c : ContactorIx, ∀ e ∈ s.ctu.units[c].entry,
    s.running = true ∧ e.lawful s.ctu.units[c].reading = true

/-! ## Laws of the store and of loading -/

/-- The target of a slot. -/
def slotTarget (k : Slot) : Target := ⟨k.val, by omega⟩

/-- The slot state of the directory and the claim record of the slot agree: LOADING or CHECKING while claimed, with the
claim's holder and length; EMPTY or VALID while unclaimed (R137). -/
def claimAgrees : SlotEntry → Option Claim → Bool
  | .empty, none => true
  | .valid _ _ _ _, none => true
  | .loading _ l h, some c => !c.isChecking && c.holder == h && c.length == l
  | .checking _ l h, some c => c.isChecking && c.holder == h && c.length == l
  | .empty, some _ => false
  | .valid _ _ _ _, some _ => false
  | .loading _ _ _, none => false
  | .checking _ _ _, none => false

/-- Every slot in the in-use set is VALID, and no claimed slot is (R79, R137). -/
abbrev InUseLaw (s : State) : Prop :=
  (∀ k : Slot, s.txe.inUse k = true → s.pst.isValid k = true)
  ∧ ∀ k : Slot, claimAgrees s.pst.dir[k] s.ldu.claims[slotTarget k] = true

/-- Two regions share no word. -/
abbrev apart (x y : Nat × Nat) : Prop := x.1 + x.2 ≤ y.1 ∨ y.1 + y.2 ≤ x.1

/-- The regions of non-EMPTY slots never overlap and each lies within the 2048 words of the store, which holds nothing beyond
(R1, R3). Store memory and both staging areas have the canonical form. -/
abbrev StoreLaw (s : State) : Prop :=
  (∀ k : Slot, ∀ r ∈ s.pst.dir[k].region, 1 ≤ r.2 ∧ r.1 + r.2 ≤ 2048)
  ∧ (∀ j k : Slot, j ≠ k → ∀ x ∈ s.pst.dir[j].region, ∀ y ∈ s.pst.dir[k].region, apart x y)
  ∧ (∀ c ∈ s.pst.store, c.1 < 2048)
  ∧ s.pst.store.wf ∧ s.ldu.staging16.wf ∧ s.ldu.staging17.wf

/-- Of a claim record: offsets within the region, segment length 1 to 64, no buffered words while CHECKING (R137, R145). -/
abbrev Claim.lawful (c : Claim) (buffered : Option (Nat × List Word)) : Prop :=
  c.committed ≤ c.length ∧ c.running ≤ c.length ∧ 1 ≤ c.segment ∧ c.segment ≤ 64
  ∧ (c.isChecking = true → buffered = none)

/-- The Load Buffer holds words of a LOADING target, fewer than its segment length, that end at its running offset (R141). -/
abbrev LoadBuffer.lawful (b : LoadBuffer) (c : Option Claim) : Prop :=
  b.words ≠ [] ∧ ∃ x ∈ c, x.isChecking = false ∧ b.words.length < x.segment ∧ x.running = b.start + b.words.length

/-- The claim records and the Load Buffer keep the laws of R137 and R141. -/
abbrev LoadLaw (s : State) : Prop :=
  (∀ t : Target, ∀ c ∈ s.ldu.claims[t], c.lawful (s.ldu.buffered t))
  ∧ ∀ b ∈ s.ldu.buf, b.lawful s.ldu.claims[b.owner]

/-! ## Rows of the validation tables (R17, R51, R127) -/

/-- A row of a validation table for one record: its item number, the offset it reports, its condition to pass. -/
structure ItemRow where
  number : Nat
  offset : Nat
  passes : Prop

/-- A judged item agrees with a row: the number, whether it passes, and the offset it reports when it does not. -/
def ItemRow.judgedBy (r : ItemRow) (i : Item) : Prop :=
  i.number = r.number ∧ (i.pass = true ↔ r.passes) ∧ (i.pass = false → i.offset = r.offset)

/-- Rows 1 to 18 of R17 for the record in slot k, with the words of 11.4. -/
def headerRows (k : Slot) (w : Nat → Word) : List ItemRow :=
  let n := fun j => (w j).toNat
  let printable := fun (i : Nat) => 32 ≤ (labelChar (joinWords (w 1) (w 2)) i).toNat
    ∧ (labelChar (joinWords (w 1) (w 2)) i).toNat ≤ 126
  [⟨1, 0, n 0 = 41217⟩,
   ⟨2, if printable 0 ∧ printable 1 then 2 else 1, ∀ i < 4, printable i⟩,
   ⟨3, 3, 1 ≤ n 3 ∧ n 3 ≤ 255⟩,
   ⟨4, 4, n 4 = 255 ∨ n 4 < 8 ∧ (w 3).getLsbD (n 4) = true⟩,
   ⟨5, 5, n 5 ≤ 32768⟩, ⟨6, 6, n 6 ≤ 4095⟩, ⟨7, 7, n 7 ≤ 4095⟩, ⟨8, 8, n 8 ≤ 2000⟩, ⟨9, 9, n 9 ≤ 10000⟩,
   ⟨10, 10, field (w 10) 0 2 = 0 ∨ field (w 10) 0 2 = 1 ∧ field (w 10) 4 2 = 1⟩,
   ⟨11, 10, field (w 10) 4 2 = 0 ∨ field (w 10) 4 2 = 1⟩,
   ⟨12, 11, 1 ≤ field (w 11) 0 8 ∧ field (w 11) 0 8 ≤ 255⟩,
   ⟨13, 12, n 12 = 65535 ∨ n 12 ≤ 15 ∧ n 12 ≠ k.val⟩,
   ⟨14, 10, field (w 10) 8 2 = 0 ∨ field (w 10) 8 2 = 1⟩,
   ⟨15, 13, n 13 ≤ 2048⟩, ⟨16, 14, n 14 ≤ 500⟩, ⟨17, 11, field (w 11) 8 8 ≤ 100⟩, ⟨18, 15, n 15 ≤ 1000⟩]

/-- Rows 19 to 24 of R17 for the entry at offset b, which is that of tower t. -/
def entryRows (w : Nat → Word) (t : TowerIx) (b : Nat) : List ItemRow :=
  let n := fun j => (w (b + j)).toNat
  let isReference := (w 4).toNat = t.val
  [⟨19, b, n 0 = t.val⟩, ⟨20, b + 2, n 2 ≤ 35999⟩,
   ⟨21, b + 3, 1 ≤ n 3 ∧ (isReference → n 3 = 16384)⟩,
   ⟨22, b + 4, -18000 ≤ (w (b + 4)).toInt ∧ (w (b + 4)).toInt ≤ 18000 ∧ (isReference → (w (b + 4)).toInt = 0)⟩,
   ⟨23, b + 5, 1 ≤ n 5 ∧ n 5 ≤ 100 ∧ field (w 11) 8 8 < n 5⟩,
   ⟨24, b + 6, 10 ≤ n 6 ∧ n 6 ≤ 1000 ∧ (w 15).toNat < n 6⟩]

/-- Rows 26 to 28 of R17 for requirement entry j of the list whose count word stands at offset f. -/
def requirementRows (live : Ctu) (w : Nat → Word) (f j : Nat) : List ItemRow :=
  let number := fun i => field (w (f + 1 + i)) 0 8
  [⟨26, f + 1 + j, number j ≤ 23 ∧ (field (w (f + 1 + j)) 8 8 = 0 ∨ field (w (f + 1 + j)) 8 8 = 1)⟩,
   ⟨27, f + 1 + j, ∀ i < j, number i ≠ number j⟩,
   ⟨28, f + 1 + j, ∃ c : ContactorIx, c.val = number j ∧ live.units[c].entry ≠ none⟩]

/-- The rows of R17 in the order they are examined: the towers of the set ascending, then the requirement entries. -/
def patternRows (k : Slot) (live : Ctu) (w : Nat → Word) : List ItemRow :=
  let towers := (List.finRange 8).filter fun t => (w 3).getLsbD t.val
  let f := 16 + 7 * towers.length
  headerRows k w
  ++ (towers.zipIdx.flatMap fun x => entryRows w x.1 (16 + 7 * x.2))
  ++ [⟨25, f, (w f).toNat ≤ 24⟩]
  ++ (List.range (min (w f).toNat 24)).flatMap (requirementRows live w f)

/-- The rows of R51 in order, entry 0 in full before entry 1. -/
def contactorRows (w : Nat → Word) : List ItemRow :=
  ⟨1, 0, (w 0).toNat ≤ 24⟩ :: (List.range (min (w 0).toNat 24)).flatMap fun j =>
    let n := fun i => (w (i + 3 * j)).toNat
    [⟨2, 1 + 3 * j, n 1 ≤ 23⟩, ⟨3, 1 + 3 * j, ∀ i < j, (w (1 + 3 * i)).toNat ≠ n 1⟩,
     ⟨4, 2 + 3 * j, n 2 ≤ 7 ∨ n 2 = 255⟩, ⟨5, 3 + 3 * j, 20 ≤ n 3 ∧ n 3 ≤ 5000⟩]

/-- The rows of R127 in order, with the words of 11.4; which word of its entry row 8 reports is a free value (log 13). -/
def scheduleRows (w : Nat → Word) : List ItemRow :=
  ⟨1, 0, (w 0).toNat ≤ 48⟩ :: (List.range (min (w 0).toNat 48)).flatMap fun j =>
    let word1 := fun i => w (1 + 3 * i)
    let months := fun i => (w (2 + 3 * i)).toNat
    let minute := fun i => field (w (3 + 3 * i)) 0 12
    let enabled := fun i => field (word1 i) 8 2 = 1
    let shareMonth := fun i => ∃ m < 12, (w (2 + 3 * i)).getLsbD m = true ∧ (w (2 + 3 * j)).getLsbD m = true
    [⟨2, 1 + 3 * j, field (word1 j) 0 8 ≤ 47⟩,
     ⟨3, 1 + 3 * j, ∀ i < j, field (word1 i) 0 8 ≠ field (word1 j) 0 8⟩,
     ⟨4, 1 + 3 * j, field (word1 j) 8 2 = 0 ∨ field (word1 j) 8 2 = 1⟩,
     ⟨5, 2 + 3 * j, 1 ≤ months j ∧ months j < 2 ^ 12⟩,
     ⟨6, 3 + 3 * j, minute j ≤ 1439⟩,
     ⟨7, 1 + 3 * j, field (word1 j) 12 2 ≤ 2⟩,
     ⟨8, 1 + 3 * j + (Config.conflictWord j).val,
       enabled j → ¬ ∃ i < j, enabled i ∧ minute i = minute j ∧ shareMonth i⟩]

/-! ## The sets of a transition -/

/-- The context holds the sets of R66 for its target's list as the contactors stand in s: the unsettled contactors, those of
them that are moving, and the towers switched; nothing is awaited. -/
def SetsOfStart (x : TxContext) (s : State) : Prop :=
  let unsettled := fun (r : ContactorIx × Position) (e : Contactor) =>
    r ∈ recRequirements (s.recordOf x.target) ∧ s.ctu.units[r.1].entry = some e ∧ e.state.standsAt r.2 = false
  (∀ k, has x.unsettled k = true ↔ ∃ p e, unsettled (k, p) e)
  ∧ (∀ k, has x.moving k = true ↔ ∃ p e, unsettled (k, p) e ∧ e.state.travelsTo p = false)
  ∧ (∀ t : TowerIx, has x.switched t = true ↔ ∃ r e, unsettled r e ∧ has e.assoc.towers t = true)
  ∧ x.awaited = 0 ∧ x.moved = false

/-! ## Laws of the Transition Engine -/

/-- The array states in which an Armed Request may stand (R58); in MUTED only with no resume pattern (R101). -/
def ArrayState.mayBeArmed : ArrayState → Bool
  | .unset | .active _ | .halted _ | .muted none => true
  | .muted (some _) | .rampDown _ | .switching _ | .settle _ _ | .readyUp _ _ | .rampUp _ _ | .muting => false

/-- A transition or a halt stands, so the newest history record is OPEN (R81, R84). -/
def ArrayState.recordOpen (a : ArrayState) : Bool := a.context.isSome || a.haltContext.isSome

/-- An Armed Request stands only in UNSET, ACTIVE, HALTED and MUTED (R58). At most 8 history records; only the newest is ever
OPEN, and it is so exactly while a transition or a halt stands; an end frame is absent exactly while OPEN; in ACTIVE the newest
is COMPLETED; a halt context names the newest (R80, R81, R84). -/
abbrev EngineLaw (s : State) : Prop :=
  (s.txe.armed.isSome = true → s.txe.array.mayBeArmed = true)
  ∧ s.txe.history.length ≤ 8
  ∧ (∀ h ∈ s.txe.history, h.halts ≤ 255 ∧ (h.endFrame = none ↔ h.outcome = .opened))
  ∧ (∀ h ∈ s.txe.history.tail, h.outcome ≠ .opened)
  ∧ (s.txe.array.recordOpen = true ↔ ∃ h ∈ s.txe.history.head?, h.outcome = .opened)
  ∧ (s.txe.array.activeSlot.isSome = true → ∃ h ∈ s.txe.history.head?, h.outcome = .completed)
  ∧ ∀ x ∈ s.txe.array.haltContext, ∃ h ∈ s.txe.history.head?, h.seq = x.seq

/-! ## Laws of monitoring and of the schedule -/

/-- MON follows the pattern of ACTIVE; outside ACTIVE every tower is HELD and no hold-off runs; the out count is zero in
NOT_IN_PATTERN, HELD and IN (R107, R108). -/
abbrev MonitorLaw (s : State) : Prop :=
  s.mon.active = s.txe.array.activeSlot
  ∧ (s.mon.active = none → s.mon.holdOff = none ∧ ∀ t : TowerIx, s.mon.towers[t].status = .held)
  ∧ ∀ t : TowerIx, s.mon.towers[t].status = .notInPattern ∨ s.mon.towers[t].status = .held
      ∨ s.mon.towers[t].status = .inTol → s.mon.towers[t].count = 0

/-- The held-due entry stands only while the hold flag is set, and no deferred entry does (R133). No deferred or held-due entry
stands for the occurrence whose date is its entry's last-fired date: for the deferred entry this is the model's, by the removal
in `Scu.fire`. DESIGN CHOICE, log 38. -/
abbrev ScheduleLaw (s : State) : Prop :=
  (s.scu.held.isSome = true → s.scu.hold = true) ∧ (s.scu.hold = true → s.scu.deferred = none)
  ∧ ∀ o ∈ s.scu.deferred.toList ++ s.scu.held.toList, ∀ e ∈ s.scu.table[o.entry], e.lastFired ≠ some o.date

end Sys2Proof.Machine
end

