-- ==== Sys2Proof/Certificates/Slice0/Obligations.lean ====
section
/-! DEFINITION. The statements for the provers. Each docstring names the rules of spec/ it states, or the log entry where it
states a choice of the model. -/

open Sys2Proof Sys2Proof.Machine

/-! ## The machine -/

/-- A step takes the command at the front of the queue and runs it on the state with the queue's rest. -/
def Obligations.StepRunsTheFrontCommand : Prop :=
  ∀ (c : Instr) (rest : List Instr) (s : State), s.pending = c :: rest → step s = exec c (s.setPending rest)

/-- No command ends in a fault or a refusal, and none touches the queue of waiting commands. Both are the model's reading: the
spec names no event that stops the unit (log 31), and what fills that queue stands outside it (log 5). -/
def Obligations.EveryCommandAnswersANextState : Prop :=
  ∀ (c : Instr) (s : State), ∃ t, exec c s = .next t ∧ t.pending = s.pending

/-- With no command waiting CMU turns to the head of its Command Queue; otherwise 250 µs pass: the loss timer and the frame pace
count each quarter of a millisecond, every other timer that runs at each fourth, nothing else changes, and the expiries of the
timers that stand at their limits, and nothing else, wait in the queue, in one order (log 3); a millisecond's expiries wait
there only where the quarter ends one. This is a choice of the model (logs 1 and 3); the limits are those of R30, R31, R34, R36,
R41, R46, R72, R76, R106, R109, R123, R140 and R155, and for a check the last moment that R146 allows it, 40 ms (log 19). -/
def Obligations.IdleStepServesThenCountsTime : Prop :=
  ∀ s : State, s.pending = [] →
    (s.running = false → step s = .next s)
    ∧ (∀ m ms, s.running = true → s.cmu.queue = m :: ms → step s = .next (s.setPending [rowOf m.code]))
    ∧ (s.running = true → s.cmu.queue = [] → s.refclk = false → step s = .next s)
    ∧ (s.running = true → s.cmu.queue = [] → s.refclk = true →
        ∃ t, step s = .next t
          ∧ t = { s with quarter := (s.quarter + 1) % 4, rif := { s.rif with loss := s.rif.loss.map (· + 1) },
                         dsy := t.dsy, ctu := t.ctu, txe := t.txe, ldu := t.ldu, mon := t.mon, scu := t.scu,
                         pending := t.pending }
          ∧ t.dsy = { s.dsy with paceLeft := s.dsy.paceLeft - 1, towers := t.dsy.towers, ilkTimer := t.dsy.ilkTimer }
          ∧ (t.quarter ≠ 0 → t.ctu = s.ctu ∧ t.txe = s.txe ∧ t.ldu = s.ldu ∧ t.mon = s.mon ∧ t.scu = s.scu
              ∧ t.dsy.towers = s.dsy.towers ∧ t.dsy.ilkTimer = s.dsy.ilkTimer)
          ∧ (t.quarter = 0 → t.dsy.ilkTimer = s.dsy.ilkTimer.map (· + 1)
              ∧ (∀ k : TowerIx, t.dsy.towers[k]
                  = { s.dsy.towers[k] with debounce := s.dsy.towers[k].debounce.map (· + 1) })
              ∧ t.mon = { s.mon with absence := s.mon.absence.map (· + 1), holdOff := s.mon.holdOff.map (· + 1) }
              ∧ t.scu = { s.scu with stale := s.scu.stale.map (· + 1) }
              ∧ t.ctu = { s.ctu with units := t.ctu.units }
              ∧ (∀ k : ContactorIx, t.ctu.units[k] = { s.ctu.units[k] with
                    openTimer := s.ctu.units[k].openTimer.map (· + 1)
                    closedTimer := s.ctu.units[k].closedTimer.map (· + 1)
                    entry := t.ctu.units[k].entry }
                  ∧ (s.ctu.units[k].entry = none → t.ctu.units[k].entry = none)
                  ∧ ∀ e, s.ctu.units[k].entry = some e → ∃ x, t.ctu.units[k].entry = some { e with state := x }
                    ∧ (∀ n, e.state = .toOpen n → x = .toOpen (n + 1))
                    ∧ (∀ n, e.state = .toClosed n → x = .toClosed (n + 1))
                    ∧ (e.state.travel = none → x = e.state))
              ∧ (∀ c n, s.txe.array = .settle c n → t.txe = { s.txe with array := .settle c (n + 1) })
              ∧ (∀ c n, s.txe.array = .readyUp c (.awaiting n) →
                  t.txe = { s.txe with array := .readyUp c (.awaiting (n + 1)) })
              ∧ ((∀ c n, s.txe.array ≠ .settle c n) → (∀ c n, s.txe.array ≠ .readyUp c (.awaiting n)) → t.txe = s.txe)
              ∧ t.ldu = { s.ldu with claims := t.ldu.claims }
              ∧ ∀ k : Target, (s.ldu.claims[k] = none → t.ldu.claims[k] = none)
                  ∧ ∀ c, s.ldu.claims[k] = some c → ∃ x, t.ldu.claims[k] = some { c with phase := x }
                    ∧ (∀ n, c.phase = .loading n → x = .loading (n + 1))
                    ∧ ∀ e n, c.phase = .checking e n → x = .checking e (n + 1))
          ∧ t.pending.Sublist (if t.quarter = 0 then allExpiries else quarterExpiries)
          ∧ (.lossTimerExpiry ∈ t.pending ↔ ∃ n, t.rif.loss = some n ∧ 12 ≤ n)
          ∧ (.missedFrame ∈ t.pending ↔ t.dsy.paceLeft = 0 ∧ t.dsy.localPace = false)
          ∧ (.localPaceFrame ∈ t.pending ↔ t.dsy.paceLeft = 0 ∧ t.dsy.localPace = true)
          ∧ (t.quarter = 0 →
              (.interlockQualified ∈ t.pending ↔ ∃ n, t.dsy.ilkTimer = some n ∧ 100 ≤ n)
              ∧ (∀ k, .cabinetDebounceExpiry k ∈ t.pending ↔ ∃ n, t.dsy.towers[k].debounce = some n ∧ 10 ≤ n)
              ∧ (∀ k, .auxDebounceExpiry k .showsOpen ∈ t.pending ↔ ∃ n, t.ctu.units[k].openTimer = some n ∧ 20 ≤ n)
              ∧ (∀ k, .auxDebounceExpiry k .showsClosed ∈ t.pending ↔
                  ∃ n, t.ctu.units[k].closedTimer = some n ∧ 20 ≤ n)
              ∧ (∀ k, .travelLimitExpiry k ∈ t.pending ↔
                  ∃ e n, t.ctu.units[k].entry = some e ∧ e.state.travel = some n ∧ e.limit ≤ n)
              ∧ (.settleTimerExpiry ∈ t.pending ↔
                  ∃ c n, t.txe.array = .settle c n ∧ recSettle (t.recordOf c.target) ≤ n)
              ∧ (.gateTimerExpiry ∈ t.pending ↔
                  ∃ c n, t.txe.array = .readyUp c (.awaiting n) ∧ c.joint.getD 0 ≤ n)
              ∧ (∀ k, .claimLapse k ∈ t.pending ↔
                  ∃ c n, t.ldu.claims[k] = some c ∧ c.phase = .loading n ∧ 60000 ≤ n)
              ∧ (∀ k, .checkCompletion k ∈ t.pending ↔
                  ∃ c e n, t.ldu.claims[k] = some c ∧ c.phase = .checking e n ∧ 40 ≤ n)
              ∧ (.absenceTimerExpiry ∈ t.pending ↔ ∃ n, t.mon.absence = some n ∧ 1000 ≤ n)
              ∧ (∀ p, t.mon.active = some p → (.holdOffExpiry ∈ t.pending ↔
                  ∃ n, t.mon.holdOff = some n ∧ recHoldOff (t.recordOf p) ≤ n))
              ∧ (.staleTimerExpiry ∈ t.pending ↔ ∃ n, t.scu.stale = some n ∧ 10000 ≤ n)))

/-! ## Power, reset and clock -/

/-- R164, R174, R175, R57, R34, R36 to R38: the Ring Interface, the Command Unit, the Transition Engine and the Drive
Synthesizer after power-on reset, where a line that shows closed or READY starts its qualification or debounce, and after
RESTART. -/
def Obligations.RingCommandEngineAndDriveAtReset : Prop :=
  (∀ (a : BitVec 4) (s : State), ∃ t, exec (.powerOnReset a) s = .next t
    ∧ t.running = true
    ∧ t.rif.recv = .hunt ∧ t.rif.run = 0 ∧ t.rif.loss = none ∧ t.rif.lossSinceGood = false ∧ t.rif.lossCount = 0
    ∧ t.rif.frame = none ∧ t.rif.joined = false ∧ t.rif.held = false ∧ t.rif.reporting = true
    ∧ t.rif.addr.toNat = a.toNat + 1 ∧ t.rif.byp = true
    ∧ t.cmu = { queue := [], reports := [.notice .unitStarted none none none [word (a.toNat + 1), 1]], overflow := false }
    ∧ t.txe = { array := .unset, armed := none, history := [], seq := 0, frame := none }
    ∧ (∀ k, t.txe.inUse k = false)
    ∧ (∀ k : TowerIx, t.dsy.towers[k].order = .rest ∧ t.dsy.towers[k].amp = 0 ∧ t.dsy.towers[k].phase = 0
        ∧ t.dsy.atRest k = true ∧ t.dsy.towers[k].clipNoticed = true ∧ t.dsy.towers[k].ready = false)
    ∧ t.dsy.heldEnvelope = 32768 ∧ t.dsy.heldReference = 0 ∧ t.dsy.lastNumber = none ∧ t.dsy.nextNumber = 0
    ∧ t.dsy.localPace = true ∧ t.dsy.ilkClosed = false
    ∧ t.dsy.ilkLine = s.dsy.ilkLine ∧ t.dsy.ilkTimer = (if s.dsy.ilkLine then some 0 else none)
    ∧ ∀ k : TowerIx, t.dsy.towers[k].rdyLine = s.dsy.towers[k].rdyLine
        ∧ t.dsy.towers[k].debounce = (if s.dsy.towers[k].rdyLine then some 0 else none))
  ∧ (∀ s : State, ∃ t, exec .resetAsserted s = .next t ∧ t.rif.byp = false
    ∧ ∀ rx, exec (.sampleFrame rx) t = .next t ∧ exec (.mgmtFrame rx) t = .next t ∧ exec (.timeFrame rx) t = .next t
        ∧ exec (.releaseFrame rx) t = .next t ∧ exec (.emptyFrame rx) t = .next t)
  ∧ (∀ (m : Mgmt) (s : State), Serves .restart m s → ∃ t, exec .restart s = .next t
    ∧ t.rif = { s.rif with reporting := true }
    ∧ t.cmu = { queue := [], overflow := false,
                reports := [.ret m.tag m.source m.code .done
                              [word s.cmu.reports.length, word (s.cmu.queue.length - 1)]] }
    ∧ t.txe.array = .unset ∧ t.txe.armed = none ∧ t.txe.seq = s.txe.seq ∧ t.txe.frame = s.txe.frame
    ∧ (∀ k, t.txe.inUse k = false)
    ∧ (∀ h hs f, s.txe.history = h :: hs → h.outcome = .opened → s.txe.frame = some f →
        t.txe.history = { h with outcome := .abandoned, endFrame := some f } :: hs)
    ∧ ((∀ h ∈ s.txe.history.head?, h.outcome ≠ .opened) → t.txe.history = s.txe.history)
    ∧ (∀ k : TowerIx, t.dsy.towers[k] = { s.dsy.towers[k] with order := .rest, clipNoticed := true })
    ∧ t.dsy = { s.dsy with towers := t.dsy.towers, heldEnvelope := 32768 })

/-- R9, R150, R54, R55, R121, R135: the Pattern Store, the Load Unit, the Contactor Unit, the Monitor Unit and the Schedule
Unit after power-on reset and after RESTART. -/
def Obligations.TablesMonitorAndScheduleAtReset : Prop :=
  (∀ (a : BitVec 4) (s : State), ∃ t, exec (.powerOnReset a) s = .next t
    ∧ (∀ k : Slot, t.pst.dir[k] = .empty) ∧ (∀ x, t.pst.store.read x = 0)
    ∧ (∀ (k : Slot) (u : TowerIx), t.pst.trim k u = { amp := 0, phase := 0 })
    ∧ (∀ x : Target, t.ldu.claims[x] = none) ∧ t.ldu.buf = none
    ∧ (∀ x, t.ldu.staging16.read x = 0 ∧ t.ldu.staging17.read x = 0)
    ∧ (∀ c : ContactorIx, t.ctu.units[c].entry = none ∧ t.ctu.line c = false ∧ t.ctu.units[c].reading = .neither
        ∧ t.ctu.units[c].openLine = s.ctu.units[c].openLine ∧ t.ctu.units[c].closedLine = s.ctu.units[c].closedLine
        ∧ t.ctu.units[c].openTimer = (if s.ctu.units[c].openLine then some 0 else none)
        ∧ t.ctu.units[c].closedTimer = (if s.ctu.units[c].closedLine then some 0 else none))
    ∧ t.ctu.guard = none
    ∧ t.mon.present = false ∧ t.mon.absence = none ∧ t.mon.lastSeq = none ∧ t.mon.holdOff = none ∧ t.mon.spent = false
    ∧ (∀ k : TowerIx, t.mon.towers[k] = { status := .held, count := 0, limitNoticed := false })
    ∧ t.scu.clock = .unset ∧ t.scu.stale = none ∧ (∀ i : EntryIx, t.scu.table[i] = none) ∧ t.scu.hold = false
    ∧ t.scu.deferred = none ∧ t.scu.held = none)
  ∧ (∀ (m : Mgmt) (s : State), Serves .restart m s → ∃ t, exec .restart s = .next t
    ∧ (∀ k : Slot, t.pst.dir[k] = if s.pst.isValid k then s.pst.dir[k] else .empty)
    ∧ t.pst.store = s.pst.store ∧ t.pst.trims = s.pst.trims
    ∧ (∀ x : Target, t.ldu.claims[x] = none) ∧ t.ldu.buf = none ∧ t.ldu.staging16 = [] ∧ t.ldu.staging17 = []
    ∧ t.ctu = { s.ctu with guard := none }
    ∧ t.mon.present = s.mon.present ∧ t.mon.absence = s.mon.absence ∧ t.mon.lastSeq = s.mon.lastSeq
    ∧ t.mon.holdOff = none ∧ t.mon.spent = false
    ∧ (∀ k : TowerIx, t.mon.towers[k] = { status := .held, count := 0, limitNoticed := false })
    ∧ t.scu = { s.scu with hold := false, deferred := none, held := none })

/-- The pins while RESET is asserted and at its release, and a stopped REFCLK (R177, R158). That while RESET is asserted every
row changes nothing but the power and clock rows and those of the input lines, and that a stopped REFCLK stops the rows of the
interval timer, is the model's reading (logs 2 and 7; the idle step is another statement's). -/
def Obligations.ResetPinsAndReferenceClock : Prop :=
  (∀ s : State, ∃ t, exec .resetAsserted s = .next t ∧ t.running = false ∧ t.rif.byp = false ∧ t.rif.out = none
    ∧ (∀ c, t.ctu.line c = false) ∧ (∀ k : TowerIx, t.dsy.towers[k].port = none))
  ∧ (∀ (a : BitVec 4) (s : State), ∃ t, exec (.powerOnReset a) s = .next t ∧ t.running = true ∧ t.rif.byp = true
    ∧ t.rif.addr.toNat = a.toNat + 1 ∧ t.dsy.localPace = true)
  ∧ (∀ s : State, exec .refclkStopped s = .next { s with refclk := false }
    ∧ exec .refclkReturned s = .next { s with refclk := true })
  ∧ (∀ (i : Instr) (s : State), isTimerRow i = true → s.running = false ∨ s.refclk = false → exec i s = .next s)
  ∧ (∀ (i : Instr) (s : State), s.running = false →
      ((∃ a, i = .powerOnReset a) ∨ i = .resetAsserted ∨ i = .refclkStopped ∨ i = .refclkReturned
        ∨ i = .interlockOpening ∨ i = .interlockLineClosed ∨ (∃ k b, i = .rdyLineChange k b)
        ∨ ∃ c x b, i = .auxInputChange c x b)
      ∨ exec i s = .next s)

/-! ## The ring -/

/-- R154: the receive state and run after a sample frame, valid or failed; what RIF keeps besides. R155, R156: the
loss-since-good flag and the loss count stay, but at the entry to GOOD, which clears both. A sample frame, valid or failed,
opens the message slot of its ring cycle (the model's reading, log 16). -/
def Obligations.SampleFrameReceiveTable : Prop :=
  ∀ (rx : Rx) (s : State), s.running = true → RingLaw s → ∃ t, exec (.sampleFrame rx) s = .next t
    ∧ t.rif.out = some rx ∧ t.rif.joined = s.rif.joined ∧ t.rif.held = s.rif.held
    ∧ t.rif.reporting = s.rif.reporting ∧ t.rif.addr = s.rif.addr ∧ t.rif.byp = s.rif.byp ∧ t.rif.slotOpen = true
    ∧ (s.rif.recv ≠ .good → t.rif.recv = .good → t.rif.lossSinceGood = false ∧ t.rif.lossCount = 0)
    ∧ (s.rif.recv = .good ∨ t.rif.recv ≠ .good →
        t.rif.lossSinceGood = s.rif.lossSinceGood ∧ t.rif.lossCount = s.rif.lossCount)
    ∧ (∀ f, parseSample rx = some f →
        t.rif.last = some f.number
        ∧ t.rif.loss = (if t.rif.recv = .hunt then none else some 0)
        ∧ (s.rif.run ≠ 0 ∧ s.rif.last = some (f.number - 1) →
            (s.rif.recv = .hunt → t.rif.run = s.rif.run + 1 ∧ t.rif.recv = if s.rif.run + 1 = 2 then .sync else .hunt)
            ∧ (s.rif.recv = .sync → t.rif.run = s.rif.run + 1 ∧ t.rif.recv = if s.rif.run + 1 = 16 then .good else .sync))
        ∧ (¬ (s.rif.run ≠ 0 ∧ s.rif.last = some (f.number - 1)) →
            s.rif.recv ≠ .good → t.rif.run = 1 ∧ t.rif.recv = s.rif.recv)
        ∧ (s.rif.recv = .good → t.rif.run = 16 ∧ t.rif.recv = .good))
    ∧ (parseSample rx = none →
        t.rif.last = s.rif.last ∧ t.rif.loss = s.rif.loss ∧ t.rif.recv = s.rif.recv
        ∧ t.rif.run = if s.rif.recv = .good then 16 else 0)

/-- R22, R26, R27, R28, R29, R32, R64, R157: a valid sample frame that RIF hands over is written to all eight ports, with its
own number, reference and envelope, replaces the held values and becomes a frame event; one that RIF does not hand over changes
nothing but RIF. A frame at the ring pace is the frame event, then the eight drive frames, then the at-rest and ramp-ended
reports they give (CLIPPING before those reports: log 35); each drive frame advances its tower by one frame, and one that is
saturated with the clip-noticed flag clear sets it and raises CLIPPING (in ascending tower order: log 33). The entry to GOOD is
another statement's. (That no frame is a renumbering where none was written before is log 24's reading.) -/
def Obligations.HandedSampleFrameReachesEveryPort : Prop :=
  (∀ (rx : Rx) (s : State), s.running = true →
    (∀ f, parseSample rx = some f →
      s.rif.recv ≠ .hunt ∨ (s.rif.run ≠ 0 ∧ s.rif.last = some (f.number - 1)) →
      ∃ t, exec (.sampleFrame rx) s = .next t
        ∧ (s.rif.recv = .sync → t.rif.recv = .good ∨ t = handValid f (s.setRif t.rif))
        ∧ (s.rif.recv ≠ .sync → t = handValid f (s.setRif t.rif))
        ∧ t.rif.frame = some f.number ∧ t.txe.frame = some f.number
        ∧ t.dsy.localPace = false ∧ t.dsy.lastNumber = some f.number
        ∧ t.dsy.heldEnvelope = f.envelope.getD 47 0 ∧ t.dsy.heldReference = f.reference
        ∧ ∀ k : TowerIx, ∃ d, t.dsy.towers[k].port = some d
            ∧ d.number = f.number ∧ d.reference = f.reference ∧ d.phase = t.dsy.towers[k].phase
            ∧ d.samples = f.envelope.map (driveSample t.dsy.towers[k].amp)
            ∧ (d.saturated = true ↔ ∃ e ∈ f.envelope, 65535 < rawSample t.dsy.towers[k].amp e)
            ∧ (d.state = .idle → t.dsy.towers[k].amp = 0))
    ∧ (s.rif.recv = .hunt →
      (∀ f, parseSample rx = some f → ¬ (s.rif.run ≠ 0 ∧ s.rif.last = some (f.number - 1))) →
      ∃ t, exec (.sampleFrame rx) s = .next t ∧ t = s.setRif t.rif ∧ t.rif.frame = s.rif.frame))
  ∧ (∀ (f : Sample) (u : State), ∃ b, handValid f u
        = ringFrame { number := f.number, reference := f.reference, envelope := f.envelope } b
            (u.setDsy { u.dsy with heldEnvelope := f.envelope.getD 47 0, heldReference := f.reference, localPace := false,
                                   paceLeft := 3 })
      ∧ (b = true ↔ ∃ n, u.dsy.lastNumber = some n ∧ f.number ≠ n + 1))
  ∧ (∀ (g : FrameSource) (b : Bool) (u : State), let v := frameEvent g.number b u
      ringFrame g b u = takeRampEnds ((List.finRange 8).filterMap fun t => (v.dsy.towers[t].advance v.pst t).2.map
        fun e => (t, e)) (takeAtRest (writeFrames g v)))
  ∧ ∀ (g : FrameSource) (v : State), let w := writeFrames g v
      let y := fun t : TowerIx => (v.dsy.towers[t].advance v.pst t).1
      w = (v.setDsy { v.dsy with towers := w.dsy.towers, lastNumber := some g.number }).setCmu w.cmu
      ∧ (∀ t : TowerIx, w.dsy.towers[t] = { y t with
            port := some ((y t).frame g.number g.reference g.envelope)
            clipNoticed := (y t).clipNoticed || g.envelope.any fun e => decide (65535 < rawSample (y t).amp e) })
      ∧ w.cmu = ((List.finRange 8).filterMap fun t => if (y t).clipNoticed then none else
            (g.envelope.find? fun e => decide (65535 < rawSample (y t).amp e)).map fun e =>
              Record.notice .clipping v.stamp (subjectOf t.val) none [word (min 65535 (y t).amp), e]).foldl Cmu.enter v.cmu

/-- R30, R157, R64: a failed frame at the ring pace and a missed frame are written with the number after the last one written,
the held reference and the held envelope value, as a frame event that is no renumbering; RIF's frame number advances by one
and the held values stay. A failed frame in HUNT or at the local pace changes RIF alone (R157), and a missed frame at the
local pace, where no timer waits for one, changes nothing (log 2). -/
def Obligations.FailedAndMissedFramesUseHeldValues : Prop :=
  (∀ (pace : Nat) (u : State), handHeld pace u
      = ringFrame { number := u.dsy.nextNumber, reference := u.dsy.heldReference,
                    envelope := List.replicate 48 u.dsy.heldEnvelope } false
          (u.setDsy { u.dsy with paceLeft := pace })
      ∧ (u.dsy.lastNumber = none → u.dsy.nextNumber = 0)
      ∧ ∀ n, u.dsy.lastNumber = some n → u.dsy.nextNumber = n + 1)
  ∧ (∀ (rx : Rx) (s : State), s.running = true → parseSample rx = none → s.rif.recv = .hunt ∨ s.dsy.localPace = true →
      ∃ t, exec (.sampleFrame rx) s = .next t ∧ t = s.setRif t.rif
        ∧ t.rif.frame = if s.rif.recv = .hunt then s.rif.frame else s.rif.frame.map (· + 1))
  ∧ (∀ s : State, s.dsy.localPace = true → exec .missedFrame s = .next s)
  ∧ ∀ s : State, s.running = true → s.dsy.localPace = false →
    (∀ rx, parseSample rx = none → s.rif.recv ≠ .hunt → ∃ t, exec (.sampleFrame rx) s = .next t
      ∧ t = handHeld 3 (s.setRif t.rif)
      ∧ t.rif.frame = s.rif.frame.map (· + 1) ∧ t.txe.frame = some s.dsy.nextNumber
      ∧ t.dsy.lastNumber = some s.dsy.nextNumber ∧ t.dsy.paceLeft = 3 ∧ t.dsy.localPace = false
      ∧ t.dsy.heldEnvelope = s.dsy.heldEnvelope ∧ t.dsy.heldReference = s.dsy.heldReference
      ∧ ∀ k : TowerIx, ∃ d, t.dsy.towers[k].port = some d ∧ d.number = s.dsy.nextNumber
          ∧ d.reference = s.dsy.heldReference ∧ d.phase = t.dsy.towers[k].phase
          ∧ d.samples = List.replicate 48 (driveSample t.dsy.towers[k].amp s.dsy.heldEnvelope))
    ∧ (s.refclk = true → ∃ t, exec .missedFrame s = .next t
      ∧ t = handHeld 2 (s.setRif t.rif)
      ∧ t.rif = { s.rif with frame := s.rif.frame.map (· + 1), slotOpen := false }
      ∧ t.txe.frame = some s.dsy.nextNumber
      ∧ t.dsy.lastNumber = some s.dsy.nextNumber ∧ t.dsy.paceLeft = 2 ∧ t.dsy.localPace = false
      ∧ t.dsy.heldEnvelope = s.dsy.heldEnvelope ∧ t.dsy.heldReference = s.dsy.heldReference
      ∧ ∀ k : TowerIx, ∃ d, t.dsy.towers[k].port = some d ∧ d.number = s.dsy.nextNumber
          ∧ d.reference = s.dsy.heldReference ∧ d.phase = t.dsy.towers[k].phase
          ∧ d.samples = List.replicate 48 (driveSample t.dsy.towers[k].amp s.dsy.heldEnvelope))

/-- R31: a frame of the local pace is IDLE on every port, with amplitude zero, 48 samples of zero, the held reference and the
phase unchanged, numbered one more than the last (0 after power-on, R37); TXE takes no frame event on it (R64). The next state
is that of DSY's eight ports written, with the at-rest changes handed to TXE as any are (R69, R88, R98; O49 says what TXE does
on them); nothing else changes. That the row changes nothing at the ring pace is the model's choice (log 2). -/
def Obligations.LocalPaceFramesAreIdle : Prop :=
  ∀ s : State, Counting s →
    (s.dsy.localPace = true → exec .localPaceFrame s = .next (takeAtRest (s.setDsy { s.dsy with
        towers := s.dsy.towers.map fun x => { x with
          amp := 0
          port := some { number := s.dsy.nextNumber, reference := s.dsy.heldReference, phase := x.phase,
                         samples := List.replicate 48 0, state := .idle, saturated := false } }
        lastNumber := some s.dsy.nextNumber
        paceLeft := 2 })))
    ∧ (s.dsy.localPace = true → ∃ t, exec .localPaceFrame s = .next t
      ∧ t.rif = s.rif ∧ t.txe.frame = s.txe.frame ∧ t.dsy.localPace = true
      ∧ t.dsy.lastNumber = some (match s.dsy.lastNumber with
          | none => 0
          | some n => n + 1)
      ∧ t.dsy.heldEnvelope = s.dsy.heldEnvelope ∧ t.dsy.heldReference = s.dsy.heldReference ∧ t.dsy.paceLeft = 2
      ∧ ∀ k : TowerIx, t.dsy.towers[k].amp = 0 ∧ t.dsy.towers[k].phase = s.dsy.towers[k].phase
          ∧ t.dsy.towers[k].ready = s.dsy.towers[k].ready
          ∧ t.dsy.towers[k].port = some
              { number := s.dsy.nextNumber, reference := s.dsy.heldReference, phase := s.dsy.towers[k].phase,
                samples := List.replicate 48 0, state := .idle, saturated := false })
    ∧ (s.dsy.localPace = false → exec .localPaceFrame s = .next s)

/-- R155, R100, R31: the loss timer's expiry in SYNC and GOOD: the release and the join dropped, the loss counted, HUNT; DSY
at the local pace with every tower in REST; the array MUTED with the resume pattern from ACTIVE, HALTED(RING) from a phase,
MUTED from MUTING, and otherwise as it was. An entry to MUTED or HALTED makes MON leave ACTIVE and discards the deferred entry
(R108, R132); where the array stays, MON and SCU do. The first local frame comes 500 µs later (log 25). The notices in their
order, without a frame number: what TXE raises, ARMED_WITHDRAWN (RING) from ACTIVE or (HALT) by a halt (R61, R85), MUTED with
the resume pattern and RING (R99), the deferred entry discarded (R132), then RING_LOST, then TX_AT_REST of a halt whose towers
the loss brings to rest (R88; at the loss itself: log 39). That the row changes nothing in HUNT, where the timer does not run,
is the model's choice (log 2). -/
def Obligations.LossTimerExpiryDropsTheRing : Prop :=
  ∀ s : State, Counting s →
    (s.rif.recv = .hunt → exec .lossTimerExpiry s = .next s)
    ∧ (s.rif.recv ≠ .hunt → ∃ t, exec .lossTimerExpiry s = .next t
      ∧ t.rif = { s.rif with held := false, joined := false, recv := .hunt, run := 0, loss := none,
                             lossSinceGood := true, lossCount := min 65535 (s.rif.lossCount + 1) }
      ∧ t.dsy = { s.dsy with localPace := true, paceLeft := 2, towers := t.dsy.towers }
      ∧ (∀ k : TowerIx, t.dsy.towers[k] = { s.dsy.towers[k] with order := .rest })
      ∧ t.txe.seq = s.txe.seq ∧ t.txe.frame = s.txe.frame ∧ t.pst = s.pst ∧ t.ldu = s.ldu ∧ t.ctu.units = s.ctu.units
      ∧ ((∃ p, s.txe.array = .active p) ∨ (∃ c, s.txe.array.context = some c) ∨ s.txe.array = .muting →
          t.mon = s.mon.leaveActive ∧ t.scu = { s.scu with deferred := none })
      ∧ (s.txe.array = .unset ∨ (∃ r, s.txe.array = .muted r) ∨ (∃ h, s.txe.array = .halted h) →
          t.mon = s.mon ∧ t.scu = s.scu ∧ t.ctu = s.ctu)
      ∧ ((∀ c, s.txe.array.context ≠ some c) → t.txe.history = s.txe.history)
      ∧ (let v := s.setDsy { s.dsy with localPace := true }
        let lost := Record.notice .ringLost none none none (optFrameWords s.rif.last)
        (∀ p, s.txe.array = .active p → t.txe.array = .muted (some p) ∧ t.txe.armed = none
          ∧ t.txe.history = s.txe.history ∧ t.ctu.guard = none
          ∧ t.cmu = s.cmu.enterAll (withdrawnNotice 6 v ++ [mutedNotice (some p) 2 v] ++ discardedNotice v ++ [lost]))
        ∧ (∀ c, s.txe.array.context = some c → t.txe.armed = none ∧ t.ctu.guard = none ∧ ∃ h, t.txe.array = .halted h
          ∧ h.reason = .ring ∧ h.subject = .none ∧ h.source = c.source ∧ h.target = c.target ∧ h.cause = c.cause
          ∧ h.mode = c.mode ∧ h.joint = c.joint ∧ h.upLen = c.upLen ∧ h.seq = s.txe.newestSeq
          ∧ (∀ v, haltView s = some v → h.step = v.step)
          ∧ (∀ r rs, s.txe.history = r :: rs →
              t.txe.history = { r with outcome := .opened, endFrame := none, halts := min 255 (r.halts + 1) } :: rs)
          ∧ (h.restNoticed = true ↔ ∀ k : TowerIx, t.dsy.atRest k = true)
          ∧ t.cmu = s.cmu.enterAll (withdrawnNotice 4 v ++ [haltedNotice h v]
              ++ (if h.restNoticed then [atRestNotice h v] else []) ++ discardedNotice v ++ [lost]))
        ∧ (s.txe.array = .muting → t.txe.array = .muted none ∧ t.txe.armed = s.txe.armed ∧ t.ctu = s.ctu
          ∧ t.cmu = s.cmu.enterAll ([mutedNotice none 2 v] ++ discardedNotice v ++ [lost]))
        ∧ (s.txe.array = .unset ∨ (∃ r, s.txe.array = .muted r) → t.txe = s.txe ∧ t.cmu = s.cmu.enterAll [lost])
        ∧ (∀ h, s.txe.array = .halted h → t.txe.armed = s.txe.armed ∧ ∃ b, t.txe.array = .halted { h with restNoticed := b }
          ∧ (b = true ↔ h.restNoticed = true ∨ ∀ k : TowerIx, t.dsy.atRest k = true)
          ∧ t.cmu = s.cmu.enterAll ([lost] ++ if b = true ∧ h.restNoticed = false then [atRestNotice h v] else []))))

/-- R156, R102: the entry to GOOD with the loss-since-good flag set hands TXE the regain signal before RING_REGAINED is raised;
with it clear it gives neither; the loss count is then 0. In MUTED with a resume pattern the signal clears it and starts a
RESUME transition to it: a RESUME record, a context with no source and no blend towers at the pattern's own ramp-up length and
the sets of R66, the guard NONE, RAMP_DOWN, TX_STARTED, and MON told. (TX_STARTED after all that RAMP_DOWN leads to at once:
log 10. That the signal precedes the frame's own handing is the model's reading, log 9.) -/
def Obligations.EntryToGoodAfterALossResumesThePattern : Prop :=
  (∀ (rx : Rx) (f : Sample) (s : State), s.running = true → parseSample rx = some f → s.rif.recv = .sync →
    s.rif.run = 15 → s.rif.last = some (f.number - 1) →
      let u := s.setRif { s.rif with recv := .good, run := 16, last := some f.number, loss := some 0,
                                     frame := some f.number, slotOpen := true, out := some rx }
      (s.rif.lossSinceGood = true →
        let v := (takeRegain (u.setRif { u.rif with lossSinceGood := false })).raise .ringRegained none
                   [word s.rif.lossCount]
        exec (.sampleFrame rx) s = .next (handValid f (v.setRif { v.rif with lossCount := 0 })))
      ∧ (s.rif.lossSinceGood = false →
          exec (.sampleFrame rx) s = .next (handValid f (u.setRif { u.rif with lossCount := 0 }))))
  ∧ (∀ (s : State) (p : Slot), s.txe.array = .muted (some p) →
      let t := takeRegain s
      ∃ r c, r.seq = s.txe.seq ∧ r.cause = .resume ∧ r.source = none ∧ r.target = p ∧ r.label = s.pst.label p
        ∧ r.mode = .fullMute ∧ r.joint = false ∧ r.start = s.txe.now ∧ (∀ f, s.txe.frame = some f → r.start = f)
        ∧ r.outcome = .opened ∧ r.endFrame = none ∧ r.halts = 0
        ∧ c.cause = .resume ∧ c.source = none ∧ c.target = p ∧ c.mode = .fullMute ∧ c.joint = none ∧ c.downLen = 256
        ∧ c.upLen = recUp (s.recordOf p) ∧ c.blend = 0 ∧ SetsOfStart c s
        ∧ (let u := (s.setTxe { s.txe with array := .muted none, seq := s.txe.seq + 1,
                                           history := r :: s.txe.history.take 7 }).setCtu { s.ctu with guard := none }
          t = tellStarted .resume ((enterRampDown c u).raise .txStarted (subjectOf p.val) [s.txe.seq, 4, 255, 1]))
        ∧ (∃ h rest, t.txe.history = h :: rest ∧ h.seq = r.seq ∧ rest = s.txe.history.take 7)
        ∧ t.txe.seq = s.txe.seq + 1 ∧ t.txe.frame = s.txe.frame ∧ t.txe.array.resume = none
        ∧ (s.txe.armed = none → t.txe.armed = none)
        ∧ ((∃ x, t.txe.array.context = some x ∧ x.cause = .resume ∧ x.source = none ∧ x.target = p ∧ x.mode = .fullMute
              ∧ x.joint = none ∧ x.downLen = 256 ∧ x.upLen = recUp (s.recordOf p) ∧ x.blend = 0
              ∧ (t.txe.array = .rampDown x → t.ctu = { s.ctu with guard := none }))
          ∨ ∃ x, t.txe.array = .halted x ∧ x.cause = .resume ∧ x.source = none ∧ x.target = p ∧ x.mode = .fullMute
              ∧ x.joint = none ∧ x.upLen = recUp (s.recordOf p)))
  ∧ (∀ s : State, s.txe.array.resume = none → takeRegain s = s)

/-- R159, R165, R158: a valid MGMT frame in its slot, for this unit or all, from a controller, joins the Command Queue or is
answered OVERRUN; every other frame received in a MGMT frame's place is only forwarded. When the slot opens, and that any whole
message frame closes it and an aborted one does not, is the model's reading (log 16). -/
def Obligations.MgmtFrameJoinsTheCommandQueue : Prop :=
  ∀ (rx : Rx) (s : State), s.running = true →
    (∀ m, parseMgmt rx = some m → s.rif.slotOpen = true → s.rif.recv ≠ .hunt →
      m.dest = s.rif.addr ∨ m.dest = 0 → m.source ≠ 0 → m.params.length ≤ 56 →
      let u := s.setRif { s.rif with slotOpen := false, out := some rx }
      (s.cmu.queue.length < 4 →
        exec (.mgmtFrame rx) s = .next (u.setCmu { s.cmu with queue := s.cmu.queue ++ [m] }))
      ∧ (4 ≤ s.cmu.queue.length →
        exec (.mgmtFrame rx) s = .next (u.enter (.ret m.tag m.source m.code .overrun []))))
    ∧ (s.rif.slotOpen = false ∨ s.rif.recv = .hunt
        ∨ (∀ m, parseMgmt rx = some m →
            (m.dest ≠ s.rif.addr ∧ m.dest ≠ 0) ∨ m.source = 0 ∨ 56 < m.params.length) →
      exec (.mgmtFrame rx) s
        = .next (s.setRif { s.rif with slotOpen := s.rif.slotOpen && rx.aborted, out := some rx }))

/-- R122, R124, R123: a TIME frame that RIF takes is discarded with TIME_INVALID when a field lies outside its range, and
otherwise sets the clock and restarts the stale timer, with the notice and the crossing of the first row of R124's table that
applies; a frame that RIF does not take is only forwarded. R124, R176: the date after a date, the count of days and the
timestamp; the fields of a TIME frame in its words (11.2). The codes 0 and 2 of the state left (log 12), and that any whole
message frame closes the slot and an aborted one does not (log 16), are the model's reading. -/
def Obligations.TimeFrameSetsTheStationClock : Prop :=
  (∀ (rx : Rx) (s : State), s.running = true →
    (s.rif.slotOpen = false ∨ s.rif.recv = .hunt ∨ parseTime rx = none →
      exec (.timeFrame rx) s
        = .next (s.setRif { s.rif with slotOpen := s.rif.slotOpen && rx.aborted, out := some rx }))
    ∧ (∀ b, parseTime rx = some b → s.rif.slotOpen = true → s.rif.recv ≠ .hunt →
      let u := s.setRif { s.rif with slotOpen := false, out := some rx }
      let fits := (2000 ≤ b.year.toNat ∧ b.year.toNat ≤ 2099) ∧ (1 ≤ b.month ∧ b.month ≤ 12)
        ∧ (1 ≤ b.day ∧ b.day ≤ monthLength b.year.toNat b.month) ∧ b.second ≤ 86399
      let v := u.setScu { s.scu with clock := .set b.date b.second, stale := some 0 }
      let set := fun (left : Nat) => v.raise .clockSet none (twoWords (timestamp b.date b.second) ++ [word left])
      (¬ fits → exec (.timeFrame rx) s = .next (u.raise .timeInvalid none [b.year, b.monthDay, b.secHi, b.secLo]))
      ∧ (fits →
        (s.scu.clock = .unset → exec (.timeFrame rx) s = .next (set 0))
        ∧ (∀ d t, s.scu.clock = .set d t ∨ s.scu.clock = .stale d t →
            let w := if s.scu.clock = .stale d t then set 2 else v
            (b.date = d ∧ b.second = t → exec (.timeFrame rx) s = .next w)
            ∧ ((b.date = d ∧ t < b.second) ∨ b.date = d.next →
                exec (.timeFrame rx) s = .next (fallDue (occurrences s.scu d t b.date b.second) w))
            ∧ (¬ (b.date = d ∧ t ≤ b.second) → b.date ≠ d.next → exec (.timeFrame rx) s
                = .next (v.raise .clockStepped none
                    (twoWords (timestamp d t) ++ twoWords (timestamp b.date b.second)))))))
    )
  ∧ (∀ b : TimeBody, b.month = field b.monthDay 0 8 ∧ b.day = field b.monthDay 8 8
      ∧ b.second = b.secHi.toNat * 65536 + b.secLo.toNat
      ∧ b.date = { year := b.year.toNat, month := b.month, day := b.day })
  ∧ (∀ y, monthLength y 2 = if y % 4 = 0 then 29 else 28)
  ∧ (∀ y m, m ∈ [4, 6, 9, 11] → monthLength y m = 30)
  ∧ (∀ y m, m ∈ [1, 3, 5, 7, 8, 10, 12] → monthLength y m = 31)
  ∧ (∀ d : Date, 2000 ≤ d.year → 1 ≤ d.month → d.month ≤ 12 → 1 ≤ d.day → d.day ≤ monthLength d.year d.month →
      (d.day < monthLength d.year d.month → d.next = { d with day := d.day + 1 })
      ∧ (d.day = monthLength d.year d.month → d.month < 12 → d.next = { d with month := d.month + 1, day := 1 })
      ∧ (d.day = monthLength d.year d.month → d.month = 12 → d.next = { year := d.year + 1, month := 1, day := 1 })
      ∧ d.next.days = d.days + 1)
  ∧ ({ year := 2000, month := 1, day := 1 } : Date).days = 0
  ∧ ∀ (d : Date) (n : Nat), timestamp d n = BitVec.ofNat 32 (86400 * d.days + n)

/-- R125: the occurrences of a crossed span are exactly those the rule names, in order of date and then of second; of several
each but the latest is MISSED, EARLIER, and the latest is taken. -/
def Obligations.CrossedSpanOccurrences : Prop :=
  (∀ (u : Scu) (d0 d1 : Date) (t0 t1 : Nat),
    (∀ o, o ∈ occurrences u d0 t0 d1 t1 ↔ ∃ e, u.table[o.entry] = some e ∧ e.enabled = true
      ∧ e.months.getLsbD (o.date.month - 1) = true ∧ e.lastFired ≠ some o.date
      ∧ ((o.date = d0 ∧ t0 + 1 ≤ 60 * e.minute ∧ 60 * e.minute ≤ (if d1 = d0 then t1 else 86399))
          ∨ (d1 ≠ d0 ∧ o.date = d1 ∧ 60 * e.minute ≤ t1)))
    ∧ (occurrences u d0 t0 d1 t1).Pairwise fun x y =>
        (x.date = d0 ∧ y.date = d1 ∧ d1 ≠ d0)
        ∨ (x.date = y.date ∧ ∀ a b, u.table[x.entry] = some a → u.table[y.entry] = some b → a.minute ≤ b.minute))
  ∧ (∀ s : State, fallDue [] s = s)
  ∧ (∀ (o : Occurrence) (s : State), fallDue [o] s = takeOccurrence o s)
  ∧ (∀ (o o' : Occurrence) (os : List Occurrence) (s : State),
      fallDue (o :: o' :: os) s = fallDue (o' :: os) (raiseDue o .missed .earlier none s))

/-- R62, R129 to R131, R133: the answer of TXE to a request of SCU or MON, by the first condition that fails; what becomes of
a taken occurrence by that answer, or under the hold; the words of SCHEDULE_DUE (11.3), and the last-fired date that a firing
sets. That an occurrence that fires removes a deferred entry of itself, without a notice, is the model's choice (log 38; after
a step back: log 40). -/
def Obligations.ScheduleRequestsAreAnsweredInOrder : Prop :=
  (∀ (target : Slot) (mode : ReqMode) (frame : Option FrameNum) (cause : Cause) (s : State),
    cause = .schedule ∨ (cause = .fallback ∧ frame = none) →
    (s.txe.array.activeSlot = none → request target mode frame cause s = (s, .state s.txe.array.inFlight))
    ∧ ∀ p, s.txe.array = .active p →
      (s.txe.armed ≠ none → request target mode frame cause s = (s, .armedStands))
      ∧ (s.txe.armed = none → s.dsy.ilkClosed = false → request target mode frame cause s = (s, .interlock))
      ∧ (s.txe.armed = none → s.dsy.ilkClosed = true →
        (s.pst.isValid target = false → request target mode frame cause s = (s, .notValid))
        ∧ (s.pst.isValid target = true →
          (target = p → request target mode frame cause s = (s, .alreadyActive))
          ∧ (target ≠ p →
            let barred := cause = .schedule ∧ mode = .blend
              ∧ (recBlend (s.recordOf target) = false ∨ recBlend (s.recordOf p) = false)
            (barred → request target mode frame cause s = (s, .notPermitted))
            ∧ (¬ barred → ∀ c, s.txe.frame = some c →
              (∀ a, frame = some a → (a - c).toNat < 2 ∨ 2 ^ 31 ≤ (a - c).toNat →
                request target mode frame cause s = (s, .late))
              ∧ (∀ a, frame = some a → 2 ^ 20 < (a - c).toNat → (a - c).toNat < 2 ^ 31 →
                request target mode frame cause s = (s, .far))
              ∧ (∀ a, frame = some a ∧ 2 ≤ (a - c).toNat ∧ (a - c).toNat ≤ 2 ^ 20 ∨ frame = none ∧ a = c + 1 →
                request target mode frame cause s
                  = (s.setTxe { s.txe with armed := some { target := target, mode := mode, frame := a, joint := none,
                                                           down := none, up := none, cause := cause } }, .armed a)))))))
  ∧ (∀ (o : Occurrence) (s : State), s.scu.hold = true →
      (s.scu.held = none →
        takeOccurrence o s = raiseDue o .missed .hold none (s.setScu { s.scu with held := some o }))
      ∧ (∀ h, s.scu.held = some h →
        let u := raiseDue h .missed .replaced none s
        takeOccurrence o s = raiseDue o .missed .hold none (u.setScu { u.scu with held := some o })))
  ∧ (∀ (o : Occurrence) (s u : State) (e : SchedEntry) (a : ReqAnswer), s.scu.hold = false →
      s.scu.table[o.entry] = some e →
      request e.target e.mode (s.rif.frame.map (· + 64)) .schedule s = (u, a) →
      (∀ f, a = .armed f → takeOccurrence o s = raiseDue o .armed .none (some f) (u.setScu (u.scu.fire o)))
      ∧ (a = .alreadyActive → takeOccurrence o s = raiseDue o .alreadyActive .none none (u.setScu (u.scu.fire o)))
      ∧ (a = .notValid → takeOccurrence o s = raiseDue o .notValid .none none u)
      ∧ (a = .notPermitted → takeOccurrence o s = raiseDue o .notPermitted .none none u)
      ∧ (a = .interlock → takeOccurrence o s = raiseDue o .missed .interlock none u)
      ∧ (a = .late → takeOccurrence o s = raiseDue o .missed .late none u)
      ∧ (a = .far → takeOccurrence o s = raiseDue o .missed .far none u)
      ∧ (a = .state false → takeOccurrence o s = raiseDue o .missed .state none u)
      ∧ (∀ reason, a = .armedStands ∧ reason = .armed ∨ a = .state true ∧ reason = .inFlight →
        (∀ d, u.scu.deferred = some d → d ≠ o →
          let v := raiseDue d .missed .replaced none u
          takeOccurrence o s = raiseDue o .deferred reason none (v.setScu { v.scu with deferred := some o }))
        ∧ (u.scu.deferred = none ∨ u.scu.deferred = some o →
          takeOccurrence o s = raiseDue o .deferred reason none (u.setScu { u.scu with deferred := some o })))
      ∧ takeOccurrence o s = settleDue o a u)
  ∧ (∀ (o : Occurrence) (outcome : DueOutcome) (reason : DueReason) (s : State),
      let first := [word (outcome.code + 256 * reason.code), word (slotByte (s.scu.table[o.entry].map (·.target)))]
      raiseDue o outcome reason none s
          = s.raise .scheduleDue (subjectOf o.entry.val) (first ++ [word o.date.days, 0])
      ∧ ∀ f, raiseDue o outcome reason (some f) s = s.raise .scheduleDue (subjectOf o.entry.val) (first ++ twoWords f))
  ∧ ([DueOutcome.armed, .alreadyActive, .notValid, .notPermitted, .deferred, .missed].map DueOutcome.code
      = [1, 2, 3, 4, 5, 6])
  ∧ ([DueReason.none, .armed, .inFlight, .state, .interlock, .late, .far, .earlier, .hold, .table, .replaced, .discarded,
      .dropped].map DueReason.code = [0, 1, 2, 3, 4, 5, 6, 7, 8, 9, 10, 11, 12])
  ∧ ∀ (u : Scu) (o : Occurrence), u.fire o = { u with table := (u.fire o).table, deferred := (u.fire o).deferred }
      ∧ (u.deferred = some o → (u.fire o).deferred = none)
      ∧ (u.deferred ≠ some o → (u.fire o).deferred = u.deferred)
      ∧ ∀ i : EntryIx, (u.fire o).table[i]
          = if i = o.entry then u.table[i].map fun e => { e with lastFired := some o.date } else u.table[i]

/-- R160, R161, R162, R158: a RELEASE and an EMPTY in their slot in GOOD. The first RELEASE joins the unit; a joined, reporting
unit with records and no release held takes it, and sends as many records as fit in its place; a held release leaves in place of
an EMPTY; every other such frame is forwarded. R169, R171, R176, 11.3: the words of a return record and of a notice, their
outcome codes and kinds. That any whole message frame closes the slot and an aborted one does not is the model's reading (log
16). -/
def Obligations.ReleaseAndEmptyCarryTheReports : Prop :=
  (∀ (rx : Rx) (s : State), s.running = true →
    let u := s.setRif { s.rif with slotOpen := s.rif.slotOpen && rx.aborted, out := some rx }
    (isRelease rx = true → s.rif.slotOpen = true → s.rif.recv = .good →
      (s.rif.joined = false → exec (.releaseFrame rx) s
        = .next ((u.setRif { u.rif with joined := true }).raise .ringJoined none [s.rif.addr.setWidth 16]))
      ∧ (s.rif.joined = true → s.rif.reporting = true → s.cmu.reports ≠ [] → s.rif.held = false →
        ∃ n, n ≤ 12 ∧ n ≤ s.cmu.reports.length
          ∧ (((s.cmu.reports.take n).map fun r => r.words.length).foldr (· + ·) 0) ≤ 59
          ∧ (n < 12 → n < s.cmu.reports.length →
              59 < ((s.cmu.reports.take (n + 1)).map fun r => r.words.length).foldr (· + ·) 0)
          ∧ exec (.releaseFrame rx) s = .next
              ((u.setRif { u.rif with
                  held := true
                  out := some (sealWords (6 :: word (s.rif.addr.toNat + (if s.cmu.overflow then 256 else 0) + 4096 * n)
                                            :: (s.cmu.reports.take n).flatMap Record.words)) }).setCmu
                { s.cmu with reports := s.cmu.reports.drop n }))
      ∧ (s.rif.joined = true → s.rif.reporting = false ∨ s.cmu.reports = [] ∨ s.rif.held = true →
        exec (.releaseFrame rx) s = .next u))
    ∧ (isRelease rx = false ∨ s.rif.slotOpen = false ∨ s.rif.recv ≠ .good → exec (.releaseFrame rx) s = .next u)
    ∧ (isEmpty rx = true → s.rif.slotOpen = true → s.rif.recv = .good → s.rif.held = true →
        exec (.emptyFrame rx) s = .next (u.setRif { u.rif with held := false, out := some (sealWords [5]) }))
    ∧ (isEmpty rx = false ∨ s.rif.slotOpen = false ∨ s.rif.recv ≠ .good ∨ s.rif.held = false →
        exec (.emptyFrame rx) s = .next u))
  ∧ (∀ (tag : BitVec 8) (source : BitVec 3) (code : BitVec 8) (o : OutcomeCode) (d : List Word), d.length ≤ 48 →
      let w := fun k => (Record.ret tag source code o d).words.getD k 0
      (Record.ret tag source code o d).words.drop 3 = d ∧ (Record.ret tag source code o d).words.length = 3 + d.length
      ∧ (w 0).toNat = d.length
      ∧ field (w 1) 0 8 = tag.toNat ∧ field (w 1) 8 3 = source.toNat ∧ field (w 1) 11 5 = 0
      ∧ field (w 2) 0 8 = code.toNat ∧ field (w 2) 8 8 = o.code)
  ∧ (∀ (k : NoticeKind) (n : Option FrameNum) (b : Option (BitVec 8)) (l : Option Label) (d : List Word), d.length ≤ 4 →
      let w := fun i => (Record.notice k n b l d).words.getD i 0
      (Record.notice k n b l d).words.length = 8
      ∧ (w 0).getLsbD 15 = true ∧ ((w 0).getLsbD 14 = true ↔ n = none) ∧ field (w 0) 8 6 = k.code
      ∧ field (w 0) 0 8 = (l.map fun x => x.toNat / 256 % 256).getD 0
      ∧ joinWords (w 1) (w 2) = n.getD 0
      ∧ field (w 3) 0 8 = (b.map (·.toNat)).getD 255 ∧ field (w 3) 8 8 = (l.map fun x => x.toNat % 256).getD 0
      ∧ ∀ i, i < 4 → w (4 + i) = d.getD i 0)
  ∧ ([OutcomeCode.done, .armed, .started, .empty, .alreadyActive, .busy, .late, .far, .notValid, .notPermitted, .notReady,
      .wrongState, .interlock, .inUse, .heldBy, .notClaimed, .offset, .range, .overlap, .bufferBusy, .referenced, .badParam,
      .badAddress, .unknown, .overrun].map OutcomeCode.code = (List.range 25).map (· + 1))
  ∧ ([NoticeKind.unitStarted, .clipping, .interlockOpened, .interlockClosed, .cabinetFault, .cabinetReady,
      .contactorConfirmed, .contactorStuck, .contactorDisagree, .contactorAgree, .armedWithdrawn, .txStarted, .txReadyUp,
      .txCompleted, .txHalted, .txAtRest, .txContinued, .muted, .monitorPresent, .monitorAbsent, .toleranceFault,
      .toleranceClear, .trimLimit, .timeInvalid, .clockStale, .clockSet, .clockStepped, .scheduleDue, .claimLapsed,
      .checkDone, .ringLost, .ringRegained, .ringJoined].map NoticeKind.code = (List.range 33).map (· + 1))

/-- R152, R153, R176: what the layouts of 11.2 write is what the receiver reads: a MGMT, a sample and a TIME frame, a RELEASE
and an EMPTY with their check words are received as they were sent, each field is read from the bits 11.2 gives it and every
other bit of those words is ignored; a frame of another kind or length is none of the five, and a frame whose last word is not
its check word is not valid. The check word is R153's: each word's bits, most significant first, through the register of x^16
+ x^12 + x^5 + 1, preset to all ones, the result inverted. Quantities of two words stand high word first, and an absent frame
number as 0 (R176). -/
def Obligations.FramesAreReceivedAsSent : Prop :=
  (∀ ws : List Word, ws ≠ [] → checkedWords (sealWords ws) = some ws)
  ∧ (∀ (ws : List Word) (c : Word), c ≠ checkWord ws → checkedWords { words := ws ++ [c], aborted := false } = none)
  ∧ (∀ ws : List Word, checkedWords { words := ws, aborted := true } = none)
  ∧ (∀ m : Mgmt, m.params.length ≤ 56 → parseMgmt (sealWords (mgmtWords m)) = some m)
  ∧ (∀ f : Sample, f.envelope.length = 48 → parseSample (sealWords (sampleWords f)) = some f)
  ∧ (∀ b : TimeBody, parseTime (sealWords [4, b.year, b.monthDay, b.secHi, b.secLo]) = some b)
  ∧ (∀ ws : List Word, (isRelease (sealWords ws) = true ↔ ws = [5]) ∧ (isEmpty (sealWords ws) = true ↔ ws = [2])
      ∧ (ws.length ≠ 5 → parseTime (sealWords ws) = none)
      ∧ (ws.length < 4 → parseMgmt (sealWords ws) = none ∧ parseSample (sealWords ws) = none))
  ∧ (∀ (k w0 w1 n : Word) (ps : List Word), parseMgmt (sealWords (k :: w0 :: w1 :: n :: ps))
      = if k = 3 ∧ ps.length = n.toNat then
          some { dest := w0.extractLsb' 0 5, source := w0.extractLsb' 8 3, tag := w1.extractLsb' 0 8,
                 code := w1.extractLsb' 8 8, params := ps }
        else none)
  ∧ (∀ (k hi lo ref : Word) (env : List Word), parseSample (sealWords (k :: hi :: lo :: ref :: env))
      = if k = 1 ∧ env.length = 48 then some { number := joinWords hi lo, reference := ref, envelope := env } else none)
  ∧ (∀ k y d hi lo : Word, parseTime (sealWords [k, y, d, hi, lo])
      = if k = 4 then some { year := y, monthDay := d, secHi := hi, secLo := lo } else none)
  ∧ (∀ rx : Rx, checkedWords rx = none → parseMgmt rx = none ∧ parseSample rx = none ∧ parseTime rx = none
      ∧ isRelease rx = false ∧ isEmpty rx = false)
  ∧ (∀ n : Nat, word n = BitVec.ofNat 16 n ∧ subjectOf n = some (BitVec.ofNat 8 n))
  ∧ (∀ (w : Word) (lo len : Nat), field w lo len = w.toNat / 2 ^ lo % 2 ^ len)
  ∧ (∀ k : Slot, slotByte (some k) = k.val) ∧ slotByte none = 255
  ∧ (∀ f : BitVec 32, twoWords f = [BitVec.ofNat 16 (f.toNat / 65536), BitVec.ofNat 16 (f.toNat % 65536)]
      ∧ optFrameWords (some f) = twoWords f)
  ∧ (∀ a b : Word, (joinWords a b).toNat = a.toNat * 65536 + b.toNat) ∧ optFrameWords none = [0, 0]
  ∧ (∀ i : Int, -32768 ≤ i → i ≤ 32767 → (signedWord i).toInt = i)
  ∧ ∀ ws : List Word,
      let bits := ws.flatMap fun w => (List.range 16).map fun i => w.getLsbD (15 - i)
      let shifted := fun (r : Word) (b : Bool) =>
        if r.getLsbD 15 = b then r <<< 1 else (r <<< 1) ^^^ BitVec.ofNat 16 (2 ^ 12 + 2 ^ 5 + 1)
      checkWord ws = ~~~(bits.foldl shifted (BitVec.allOnes 16))

/-! ## Commands: tests, answers and STATUS -/

/-- R166, R167: the tests of a command at the head of the Command Queue, in order, the range tests by ascending word; the
twenty codes and the command each names, any other code being UNKNOWN_COMMAND; the broadcast list and the admitted parameter
counts. That a row of another command than the head's changes nothing is the model's reading (log 4). -/
def Obligations.CommandsAreTestedInOrder : Prop :=
  (∀ (m : Mgmt) (s : State), s.running = true → s.cmu.queue.head? = some m →
    (m.code = 0 ∨ 20 < m.code.toNat → exec .unknownCommand s = .next (answered m .unknown [] s))
    ∧ ∀ c : Cmd, m.code = c.code →
      (m.dest = 0 → c.broadcast = false → exec (rowOf m.code) s = .next (answered m .badAddress [] s))
      ∧ (m.dest ≠ 0 ∨ c.broadcast = true →
          (c.admitsCount m.params.length = false →
            exec (rowOf m.code) s = .next (answered m .badParam [word m.params.length] s))
          ∧ (c.admitsCount m.params.length = true → ∀ before after k, c.ranges m = before ++ (k, false) :: after →
              (∀ x ∈ before, x.2 = true) → exec (rowOf m.code) s = .next (answered m .badParam [word k] s))))
  ∧ (∀ (b : BitVec 8) (s : State), s.running = true → (∀ m, s.cmu.queue.head? = some m → rowOf m.code ≠ rowOf b) →
      exec (rowOf b) s = .next s)
  ∧ (∀ c : Cmd, c.broadcast = true ↔
      c ∈ [Cmd.status, .switch, .withdraw, .go, .mute, .ackFault, .scheduleHold, .reporting])
  ∧ (let all := [Cmd.status, .switch, .withdraw, .go, .continueTx, .retreat, .mute, .move, .ackFault, .trimClear, .scheduleHold, .claim,
      .load, .commit, .finish, .unclaim, .read, .reporting, .clearOverflow, .restart]
    all.map Cmd.code = (List.range 20).map (fun k => BitVec.ofNat 8 (k + 1))
    ∧ all.map (fun c => rowOf c.code) = [Instr.status, .switch, .withdraw, .go, .continueTx, .retreat, .mute, .move, .ackFault,
        .trimClear, .scheduleHold, .claim, .load, .commit, .finish, .unclaim, .read, .reporting, .clearOverflow, .restart])
  ∧ (∀ (b : BitVec 8) (c : Cmd), Cmd.ofCode b = some c ↔ b = c.code)
  ∧ (∀ b : BitVec 8, b = 0 ∨ 20 < b.toNat → rowOf b = .unknownCommand)
  ∧ (∀ (c : Cmd) (n : Nat), c.admitsCount n = true ↔
      (c ∈ [Cmd.status, .withdraw, .continueTx, .retreat, .ackFault, .clearOverflow, .restart] ∧ n = 0)
      ∨ (c ∈ [Cmd.mute, .move, .trimClear, .unclaim, .scheduleHold, .reporting] ∧ n = 1)
      ∨ (c ∈ [Cmd.commit, .finish] ∧ n = 2) ∨ (c ∈ [Cmd.go, .read] ∧ n = 3) ∨ (c = .claim ∧ n = 4)
      ∨ (c = .switch ∧ n = 6) ∨ (c = .load ∧ 3 ≤ n ∧ n ≤ 56))
  ∧ ∀ (c : Cmd) (m : Mgmt), ((c.ranges m).map (·.1)).Pairwise (· < ·)

/-- The parameter words each command examines, in ascending order, and the values it admits there; with an admitted count it
passes the tests of R166 exactly when every word is admitted and it is not a broadcast that R167 turns away (R59, R77, R94,
R50, R120, R133, R163, R138, R142, R144, R145, R148, R149; 11.2). A parameter word that the frame does not carry reads 0, and
the target of a frame is its first word. Broadcasts are covered with the rest. That the base of targets 16 and 17 is not
examined is the model's reading (log 17). -/
def Obligations.CommandsAdmitTheirRanges : Prop :=
  ∀ m : Mgmt,
    let examines := fun (c : Cmd) (ws : List (Nat × Prop)) =>
      List.Forall₂ (fun r w => r.1 = w.1 ∧ (r.2 = true ↔ w.2)) (c.ranges m) ws
      ∧ (precheck c m = none ↔ (m.dest ≠ 0 ∨ c.broadcast = true) ∧ ∀ w ∈ ws, w.2)
    (m.params.length = 6 → examines .switch
      [(0, field (m.param 0) 4 2 ≤ 2), (1, (m.param 0).getLsbD 8 = true → 10 ≤ m.num 1 ∧ m.num 1 ≤ 10000),
       (4, (m.param 0).getLsbD 10 = true → m.num 4 ≤ 4095), (5, (m.param 0).getLsbD 11 = true → m.num 5 ≤ 4095)])
    ∧ (m.params.length = 1 →
      examines .mute [(0, m.num 0 ≤ 4095 ∨ m.num 0 = 65535)]
      ∧ examines .move [(0, field (m.param 0) 0 8 ≤ 23 ∧ field (m.param 0) 8 8 ≤ 1)]
      ∧ examines .trimClear [(0, m.num 0 ≤ 15)]
      ∧ examines .unclaim [(0, m.num 0 ≤ 17)]
      ∧ examines .scheduleHold [(0, ¬ ((m.param 0).getLsbD 0 = true ∧ (m.param 0).getLsbD 1 = true))]
      ∧ examines .reporting [(0, m.num 0 ≤ 1)])
    ∧ (m.params.length = 4 → examines .claim
      [(0, m.num 0 ≤ 17), (1, m.num 0 ≤ 15 → m.num 1 ≤ 2047), (2, 1 ≤ m.num 2 ∧ m.num 2 ≤ 2048), (3, m.num 3 ≤ 64)])
    ∧ (3 ≤ m.params.length ∧ m.params.length ≤ 56 → examines .load [(0, m.num 0 ≤ 17), (1, m.num 1 ≤ 2047)])
    ∧ (m.params.length = 2 →
      examines .commit [(0, m.num 0 ≤ 17), (1, m.num 1 ≤ 2047 ∨ m.num 1 = 65535)]
      ∧ examines .finish [(0, m.num 0 ≤ 17)])
    ∧ (m.params.length = 3 →
      examines .go []
      ∧ examines .read [(0, m.num 0 ≤ 19), (1, m.num 1 ≤ 2047), (2, 1 ≤ m.num 2 ∧ m.num 2 ≤ 48)])
    ∧ (m.params.length = 0 → ∀ c ∈ [Cmd.status, .withdraw, .continueTx, .retreat, .ackFault, .clearOverflow, .restart],
        examines c [])
    ∧ (∀ k, m.param k = m.params.getD k 0 ∧ m.num k = (m.param k).toNat)
    ∧ (m.num 0 ≤ 17 → (targetParam m).val = m.num 0)

/-- R168, R171, R172, R173, R163: one return record answers a command, the frame leaves the queue, and a record that finds 32
queued is discarded with the overflow flag set, a record below 32 joining at the end; notices carry RIF's frame number, absent
at the local pace; REPORTING and CLEAR_OVERFLOW. -/
def Obligations.RecordsEnterTheReportQueue : Prop :=
  (∀ (r : Record) (u : Cmu), (u.reports.length < 32 → u.enter r = { u with reports := u.reports ++ [r] })
    ∧ (32 ≤ u.reports.length → u.enter r = { u with overflow := true }))
  ∧ (∀ (r : Record) (s : State), s.enter r = s.setCmu (s.cmu.enter r)
    ∧ s.stamp = if s.dsy.localPace then none else s.rif.frame)
  ∧ (∀ (m : Mgmt) (o : OutcomeCode) (d : List Word) (s : State),
    (s.cmu.reports.length < 32 → answered m o d s = s.setCmu { s.cmu with
        queue := s.cmu.queue.tail, reports := s.cmu.reports ++ [.ret m.tag m.source m.code o d] })
    ∧ (32 ≤ s.cmu.reports.length → answered m o d s = s.setCmu { s.cmu with
        queue := s.cmu.queue.tail, overflow := true }))
  ∧ (∀ (k : NoticeKind) (b : Option (BitVec 8)) (d : List Word) (s : State),
    (s.cmu.reports.length < 32 → s.raise k b d = s.setCmu { s.cmu with
        reports := s.cmu.reports ++ [.notice k (if s.dsy.localPace then none else s.rif.frame) b none d] })
    ∧ (32 ≤ s.cmu.reports.length → s.raise k b d = s.setCmu { s.cmu with overflow := true }))
  ∧ (∀ (m : Mgmt) (s : State), Serves .reporting m s →
    (m.num 0 = 1 → exec .reporting s = .next (answered m .done [] (s.setRif { s.rif with reporting := true })))
    ∧ (m.num 0 = 0 → exec .reporting s = .next (answered m .done [] (s.setRif { s.rif with reporting := false }))))
  ∧ (∀ (m : Mgmt) (s : State), Serves .clearOverflow m s →
    exec .clearOverflow s = .next (answered m .done [if s.cmu.overflow then 1 else 0]
      (s.setCmu { s.cmu with overflow := false })))

/-- R170: STATUS is answered DONE with 16 words that show the unit as each block holds it, and changes nothing else (absent
values: 255 for a slot and a halt subject, 0 for a label, a frame and a halt reason, log 30). Contactors in trouble are the
defined ones in STUCK or DISAGREE (R42). The codes of array states, halt reasons, tolerance statuses, clock and receive states
(R56, R83, R107, R176, 11.3); which array states are in flight, and the slot or context each holds (R56). -/
def Obligations.StatusShowsTheUnit : Prop :=
  (∀ (m : Mgmt) (s : State), Serves .status m s → exec .status s = .next (answered m .done (statusWords s) s))
  ∧ (∀ (c : TxContext) (g : Gate) (e : TowerSet) (n : Nat) (p : Slot) (r : Option Slot) (h : HaltContext),
      [ArrayState.unset, .active p, .rampDown c, .switching c, .settle c n, .readyUp c g, .rampUp c e, .halted h, .muting,
        .muted r].map (fun a => (a.code, a.inFlight, a.activeSlot, a.context, a.haltContext, a.resume))
      = [(1, false, none, none, none, none), (2, false, some p, none, none, none), (3, true, none, some c, none, none),
         (4, true, none, some c, none, none), (5, true, none, some c, none, none), (6, true, none, some c, none, none),
         (7, true, none, some c, none, none), (8, false, none, none, some h, none), (9, true, none, none, none, none),
         (10, false, none, none, none, r)])
  ∧ [HaltReason.stuck, .drift, .cabinet, .gate, .ring, .interlock].map HaltReason.code = [1, 2, 3, 4, 5, 6]
  ∧ (∀ (k : ContactorIx) (t : TowerIx), (HaltSubject.contactor k).byte = k.val ∧ (HaltSubject.tower t).byte = t.val)
  ∧ HaltSubject.none.byte = 255
  ∧ [Tolerance.notInPattern, .held, .inTol, .out, .fault].map Tolerance.code = [1, 2, 3, 4, 5]
  ∧ (∀ (d : Date) (n : Nat), [Clock.unset, .set d n, .stale d n].map Clock.code = [0, 1, 2])
  ∧ [RecvState.hunt, .sync, .good].map RecvState.code = [0, 1, 2]
  ∧ ∀ s : State, QueueLaw s → (statusWords s).length = 16
    ∧ let w := fun k => (statusWords s).getD k 0
      field (w 0) 0 8 = s.rif.addr.toNat ∧ field (w 0) 8 8 = 1
      ∧ field (w 1) 0 8 = s.txe.array.code
      ∧ (∀ p, s.txe.array = .active p → field (w 1) 8 8 = p.val ∧ joinWords (w 2) (w 3) = s.pst.label p)
      ∧ ((∀ p, s.txe.array ≠ .active p) → field (w 1) 8 8 = 255 ∧ w 2 = 0 ∧ w 3 = 0)
      ∧ (∀ a, s.txe.armed = some a → field (w 4) 0 8 = a.target.val ∧ joinWords (w 5) (w 6) = a.frame)
      ∧ (s.txe.armed = none → field (w 4) 0 8 = 255 ∧ w 5 = 0 ∧ w 6 = 0)
      ∧ (∀ p, s.txe.array = .muted (some p) → field (w 4) 8 8 = p.val)
      ∧ (s.txe.array.resume = none → field (w 4) 8 8 = 255)
      ∧ (∀ h, s.txe.array = .halted h → field (w 7) 0 8 = h.reason.code ∧ field (w 7) 8 8 = h.subject.byte)
      ∧ ((∀ h, s.txe.array ≠ .halted h) → field (w 7) 0 8 = 0 ∧ field (w 7) 8 8 = 255)
      ∧ field (w 8) 0 2 = s.rif.recv.code ∧ (w 8).getLsbD 2 = s.rif.joined ∧ (w 8).getLsbD 3 = s.rif.reporting
      ∧ (w 8).getLsbD 4 = s.mon.present ∧ field (w 8) 5 2 = s.scu.clock.code ∧ (w 8).getLsbD 7 = s.scu.hold
      ∧ (w 8).getLsbD 8 = s.dsy.ilkClosed ∧ (w 8).getLsbD 9 = s.cmu.overflow ∧ field (w 8) 10 6 = 0
      ∧ (∀ t : TowerIx,
          (w (9 + t.val / 2)).getLsbD (8 * (t.val % 2)) = s.dsy.atRest t
          ∧ (w (9 + t.val / 2)).getLsbD (8 * (t.val % 2) + 1) = s.dsy.towers[t].ready
          ∧ field (w (9 + t.val / 2)) (8 * (t.val % 2) + 2) 6 = s.mon.towers[t].status.code)
      ∧ field (w 13) 0 8 = ((List.finRange 24).filter fun c : ContactorIx =>
          s.ctu.units[c].entry.any fun e => e.state == .stuck || e.state == .disagree).length
      ∧ field (w 13) 8 8 = s.cmu.reports.length
      ∧ field (w 15) 2 14 = 0
      ∧ ∀ t : Target, (joinWords (w 15) (w 14)).getLsbD t.val = s.ldu.claims[t].isSome

/-! ## The Armed Request, GO, CONTINUE, RETREAT, MUTE -/

/-- R60: the checks of SWITCH in order, and the request it arms; R59 and 11.2: the fields of its frame, override fields of 0
standing for 4096 frames. -/
def Obligations.SwitchIsExaminedAndArmed : Prop :=
  (∀ (m : Mgmt) (s : State), Serves .switch m s →
      let p := switchParams m
      (s.pst.isValid p.target = false → exec .switch s = .next (answered m .notValid [] s))
      ∧ (s.pst.isValid p.target = true →
        (s.dsy.ilkClosed = false → exec .switch s = .next (answered m .interlock [] s))
        ∧ (s.dsy.ilkClosed = true →
          (s.txe.array.inFlight = true → exec .switch s = .next (answered m .busy [] s))
          ∧ (s.txe.array.inFlight = false →
            let barred := p.mode = .blend ∧ (recBlend (s.recordOf p.target) = false
              ∨ ∃ q, s.txe.array = .active q ∧ recBlend (s.recordOf q) = false)
            (barred → exec .switch s = .next (answered m .notPermitted [] s))
            ∧ (¬ barred →
              (s.txe.frame = none → exec .switch s = .next (answered m .late [] s))
              ∧ ∀ c, s.txe.frame = some c →
                (∀ a, p.frame = some a → (a - c).toNat < 2 ∨ 2 ^ 31 ≤ (a - c).toNat →
                  exec .switch s = .next (answered m .late [] s))
                ∧ (∀ a, p.frame = some a → 2 ^ 20 < (a - c).toNat → (a - c).toNat < 2 ^ 31 →
                  exec .switch s = .next (answered m .far [] s))
                ∧ ∀ f, p.frame = some f ∧ 2 ≤ (f - c).toNat ∧ (f - c).toNat ≤ 2 ^ 20 ∨ p.frame = none ∧ f = c + 1 →
                  (s.txe.array = .active p.target → s.txe.armed = none →
                    exec .switch s = .next (answered m .done [1] s))
                  ∧ (¬ (s.txe.array = .active p.target ∧ s.txe.armed = none) → ∃ t,
                    exec .switch s = .next (answered m .armed (word p.target.val :: twoWords f) t)
                    ∧ t = (s.setTxe t.txe).setCmu t.cmu
                    ∧ t.txe = { s.txe with
                        armed := some { target := p.target, mode := p.mode, frame := f, joint := p.joint, down := p.down,
                                        up := p.up, cause := .command }
                        array := t.txe.array }
                    ∧ (∀ r, s.txe.array = .muted r → t.txe.array = .muted none)
                    ∧ ((∀ r, s.txe.array ≠ .muted r) → t.txe.array = s.txe.array)
                    ∧ (s.txe.armed = none → t.cmu = s.cmu)
                    ∧ ∀ o, s.txe.armed = some o → t.cmu = s.cmu.enter (.notice .armedWithdrawn s.stamp
                        (subjectOf o.target.val) none ([1] ++ twoWords o.frame ++ [word o.cause.code]))))))))
  ∧ (∀ m : Mgmt, let p := switchParams m
      p.target.val = field (m.param 0) 0 4
      ∧ (field (m.param 0) 4 2 = 0 → p.mode = .default) ∧ (field (m.param 0) 4 2 = 1 → p.mode = .fullMute)
      ∧ (field (m.param 0) 4 2 = 2 → p.mode = .blend)
      ∧ p.joint = (if (m.param 0).getLsbD 8 then some (m.num 1) else none)
      ∧ ((m.param 0).getLsbD 9 = false → p.frame = none)
      ∧ ((m.param 0).getLsbD 9 = true → ∃ f, p.frame = some f ∧ f.toNat = m.num 2 * 65536 + m.num 3)
      ∧ ((m.param 0).getLsbD 10 = false → p.down = none)
      ∧ ((m.param 0).getLsbD 10 = true → p.down = some (if m.num 4 = 0 then 4096 else m.num 4))
      ∧ ((m.param 0).getLsbD 11 = false → p.up = none)
      ∧ ((m.param 0).getLsbD 11 = true → p.up = some (if m.num 5 = 0 then 4096 else m.num 5)))

/-- R63: WITHDRAW removes the Armed Request and names its target and frame, and its target leaves the in-use set unless the
array state holds it; with none it is refused WRONG_STATE, in flight always. The in-use set (R79) is written out: the pattern
of ACTIVE, source and target of a transition or halt context, the resume pattern of MUTED, the target of the Armed Request. It
has no parameters and may be broadcast. -/
def Obligations.WithdrawRemovesTheArmedRequest : Prop :=
  (∀ (m : Mgmt) (s : State), Serves .withdraw m s →
    (s.txe.armed = none → exec .withdraw s = .next (answered m .wrongState [] s))
    ∧ (∀ a, s.txe.armed = some a →
        exec .withdraw s = .next (answered m .done (word a.target.val :: twoWords a.frame)
          (s.setTxe { s.txe with armed := none })))
    ∧ (EngineLaw s → s.txe.array.inFlight = true → exec .withdraw s = .next (answered m .wrongState [] s)))
  ∧ (∀ (x : Txe) (k : Slot), ({ x with armed := none } : Txe).inUse k = true ↔ k ∈ x.array.slots)
  ∧ (∀ (x : Txe) (k : Slot), x.inUse k = true ↔ k ∈ x.array.slots ∨ ∃ a, x.armed = some a ∧ a.target = k)
  ∧ (∀ (x : ArrayState) (k : Slot), k ∈ x.slots ↔ x = .active k
      ∨ (∃ c, x.context = some c ∧ (c.target = k ∨ c.source = some k))
      ∨ (∃ h, x = .halted h ∧ (h.target = k ∨ h.source = some k)) ∨ x = .muted (some k))
  ∧ (∀ m : Mgmt, precheck .withdraw m = none ↔ m.params = [])

/-- R77: GO by the array state, and the frame events of GO taken. It may be broadcast. -/
def Obligations.GoTakesItsActivationFrame : Prop :=
  (∀ (m : Mgmt) (s : State), Serves .go m s →
    let late := exec .go s = .next (answered m .late [] s)
    (∀ c n, s.txe.array = .readyUp c (.awaiting n) →
      (s.txe.frame = none → late)
      ∧ ∀ now, s.txe.frame = some now →
        (∀ a, goFrame m = some a → (a - now).toNat < 2 ∨ 2 ^ 31 ≤ (a - now).toNat → late)
        ∧ (∀ a, goFrame m = some a → 2 ^ 20 < (a - now).toNat → (a - now).toNat < 2 ^ 31 →
            exec .go s = .next (answered m .far [] s))
        ∧ ∀ f, goFrame m = some f ∧ 2 ≤ (f - now).toNat ∧ (f - now).toNat ≤ 2 ^ 20
            ∨ goFrame m = none ∧ f = now + 1 →
          exec .go s = .next (answered m .done (twoWords f)
            (s.setTxe { s.txe with array := .readyUp c (.taken f) })))
    ∧ (∀ c n, s.txe.array = .rampDown c ∨ s.txe.array = .switching c ∨ s.txe.array = .settle c n →
        exec .go s = .next (answered m .notReady [] s))
    ∧ (∀ c f e h p r, s.txe.array = .readyUp c (.taken f) ∨ s.txe.array = .rampUp c e ∨ s.txe.array = .halted h
          ∨ s.txe.array = .active p ∨ s.txe.array = .muted r ∨ s.txe.array = .unset ∨ s.txe.array = .muting →
        exec .go s = .next (answered m .wrongState [] s)))
  ∧ (∀ m : Mgmt, precheck .go m = none ↔ m.params.length = 3)
  ∧ (∀ (m : Mgmt), (goFrame m = none ↔ (m.param 0).getLsbD 0 = false)
      ∧ ∀ f, goFrame m = some f → f.toNat = m.num 1 * 65536 + m.num 2)
  ∧ (∀ (c : TxContext) (f n : FrameNum) (b : Bool) (s : State), s.txe.armed = none →
      s.txe.array = .readyUp c (.taken f) →
      let u := s.setTxe { s.txe with frame := some n }
      (b = false → n = f → frameEvent n b s = startRampUp c u)
      ∧ (b = false → n ≠ f → (f - n).toNat < 2 ^ 31 → frameEvent n b s = u)
      ∧ (b = true ∨ (n ≠ f ∧ 2 ^ 31 ≤ (f - n).toNat) → ∀ g, c.joint = some g →
          frameEvent n b s = (u.setTxe { u.txe with array := .readyUp c (.awaiting 0) }).raise .txReadyUp
            (subjectOf c.target.val) [s.txe.newestSeq, word g]))

/-- R90, R91: the checks of CONTINUE in order; one that is taken removes an Armed Request with ARMED_WITHDRAWN (REPLACED),
keeps the fields of the halt context with no blend towers and the sets of R66 afresh, keeps the history, enters SWITCHING,
raises TX_CONTINUED last, and waits in SWITCHING for a contactor of the list that is not at its position. (That TX_CONTINUED
comes after all that SWITCHING leads to at once is log 10's reading; the halt count and reason it names are those of the halt
left, log 22.) -/
def Obligations.ContinueRestartsFromSwitching : Prop :=
  ∀ (m : Mgmt) (s : State), Serves .continueTx m s →
    ((∀ h, s.txe.array ≠ .halted h) → exec .continueTx s = .next (answered m .wrongState [] s))
    ∧ ∀ h, s.txe.array = .halted h →
      (s.dsy.ilkClosed = false → exec .continueTx s = .next (answered m .interlock [] s))
      ∧ (s.dsy.ilkClosed = true →
        ((∃ t : TowerIx, s.dsy.atRest t = false) → exec .continueTx s = .next (answered m .busy [] s))
        ∧ ((∀ t : TowerIx, s.dsy.atRest t = true) → ∃ u,
          exec .continueTx s = .next (answered m .started [h.seq] u)
          ∧ u.txe.armed = none ∧ u.txe.seq = s.txe.seq ∧ u.txe.frame = s.txe.frame
          ∧ u.txe.history.map (·.seq) = s.txe.history.map (·.seq)
          ∧ (∃ x : TxContext, x.cause = h.cause ∧ x.source = h.source ∧ x.target = h.target ∧ x.mode = h.mode
              ∧ x.joint = h.joint ∧ x.upLen = h.upLen ∧ x.blend = 0 ∧ SetsOfStart x s
              ∧ u = (enterSwitching x ((s.setTxe { s.txe with armed := none }).setCmu
                      (s.cmu.enterAll (withdrawnNotice 1 s)))).raise .txContinued (subjectOf h.target.val)
                  [h.seq, word s.txe.newestHalts, word h.reason.code])
          ∧ (∀ r, s.txe.history.head? = some r → s.txe.newestHalts = r.halts)
          ∧ ((∃ c, u.txe.array.context = some c ∧ c.cause = h.cause ∧ c.source = h.source ∧ c.target = h.target
                ∧ c.mode = h.mode ∧ c.joint = h.joint ∧ c.upLen = h.upLen ∧ c.blend = 0)
            ∨ ∃ k, u.txe.array = .halted k ∧ k.cause = h.cause ∧ k.source = h.source ∧ k.target = h.target
                ∧ k.mode = h.mode ∧ k.joint = h.joint ∧ k.upLen = h.upLen)
          ∧ (((recRequirements (s.recordOf h.target)).map (·.1)).Nodup →
              ∀ r ∈ recRequirements (s.recordOf h.target), ∀ e, s.ctu.units[r.1].entry = some e →
              e.state.standsAt r.2 = false → s.ctu.units[r.1].reading.agrees r.2 = false →
              ∃ c, u.txe.array = .switching c
                ∧ ∃ x, u.ctu.units[r.1].entry = some x ∧ x.state.travelsTo r.2 = true)))

/-- R92: the checks of RETREAT in order; one that is taken removes an Armed Request with ARMED_WITHDRAWN (REPLACED), abandons
the halted record, opens a RETREAT record to the old source and starts toward it with the sets of R66 and the guard NONE. (That
TX_STARTED comes after all that RAMP_DOWN leads to at once is log 10's reading.) -/
def Obligations.RetreatGoesBackToTheSource : Prop :=
  ∀ (m : Mgmt) (s : State), Serves .retreat m s →
    ((∀ h, s.txe.array ≠ .halted h) → exec .retreat s = .next (answered m .wrongState [] s))
    ∧ ∀ h, s.txe.array = .halted h →
      (s.dsy.ilkClosed = false → exec .retreat s = .next (answered m .interlock [] s))
      ∧ (s.dsy.ilkClosed = true →
        (h.source = none → exec .retreat s = .next (answered m .wrongState [] s))
        ∧ ∀ k, h.source = some k →
          ((∃ t : TowerIx, s.dsy.atRest t = false) → exec .retreat s = .next (answered m .busy [] s))
          ∧ ((∀ t : TowerIx, s.dsy.atRest t = true) → ∃ u,
            exec .retreat s = .next (answered m .started [s.txe.seq] u)
            ∧ u.txe.armed = none ∧ u.txe.seq = s.txe.seq + 1 ∧ u.txe.frame = s.txe.frame
            ∧ (∃ r, u.txe.history = r :: (closeNewest .abandoned s.txe.now s.txe.history).take 7
                ∧ r.seq = s.txe.seq ∧ r.cause = .retreat ∧ r.source = none ∧ r.target = k ∧ r.label = s.pst.label k
                ∧ r.mode = .fullMute ∧ r.joint = false ∧ r.start = s.txe.now ∧ r.outcome = .opened
                ∧ r.endFrame = none)
            ∧ (∃ r x, r.seq = s.txe.seq ∧ r.cause = .retreat ∧ r.source = none ∧ r.target = k ∧ r.label = s.pst.label k
                ∧ r.mode = .fullMute ∧ r.joint = false ∧ r.start = s.txe.now ∧ r.outcome = .opened ∧ r.endFrame = none
                ∧ r.halts = 0
                ∧ x.cause = .retreat ∧ x.source = none ∧ x.target = k ∧ x.mode = .fullMute ∧ x.joint = none
                ∧ x.downLen = 256 ∧ x.upLen = recUp (s.recordOf k) ∧ x.blend = 0 ∧ SetsOfStart x s
                ∧ u = tellStarted .retreat ((enterRampDown x (((s.setTxe { s.txe with
                        armed := none
                        seq := s.txe.seq + 1
                        history := r :: (closeNewest .abandoned s.txe.now s.txe.history).take 7 }).setCtu
                      { s.ctu with guard := none }).setCmu (s.cmu.enterAll (withdrawnNotice 1 s)))).raise .txStarted
                    (subjectOf k.val) [s.txe.seq, 5, 255, 1]))
            ∧ ((∃ c, u.txe.array.context = some c ∧ c.cause = .retreat ∧ c.source = none ∧ c.target = k
                  ∧ c.mode = .fullMute ∧ c.joint = none ∧ c.downLen = 256 ∧ c.upLen = recUp (s.recordOf k)
                  ∧ c.blend = 0 ∧ u.txe.array ≠ .rampDown c)
              ∨ ∃ x, u.txe.array = .halted x ∧ x.cause = .retreat ∧ x.source = none ∧ x.target = k
                  ∧ x.mode = .fullMute ∧ x.joint = none ∧ x.upLen = recUp (s.recordOf k))
            ∧ ∀ j, u.txe.inUse j = true ↔ j = k))

/-- R94 to R97: MUTE withdraws the Armed Request, takes every tower that is not in REST down with its ramp length, closes an
OPEN record of a phase or a halt MUTED, and enters MUTING, or MUTED at once with every tower at rest, with the notice MUTED,
cause COMMAND (R99), and a deferred entry discarded (R132); in UNSET, MUTING and MUTED it gives no orders. (That 'every tower at
rest' is judged after the orders, in a phase and in HALTED too, is log 23's reading.) -/
def Obligations.MuteTakesTheArrayDown : Prop :=
  (∀ m : Mgmt, muteLength m = if m.num 0 = 65535 then 256 else if m.num 0 = 0 then 4096 else m.num 0)
  ∧ ∀ (m : Mgmt) (s : State), Serves .mute m s →
    let w := withdraw .mute s
    (s.txe.armed = none → w = s)
    ∧ (∀ a, s.txe.armed = some a → w = (s.setTxe { s.txe with armed := none }).raise .armedWithdrawn
        (subjectOf a.target.val) ([5] ++ twoWords a.frame ++ [word a.cause.code]))
    ∧ (s.txe.array = .unset ∨ s.txe.array = .muting → exec .mute s = .next (answered m .done [] w))
    ∧ (∀ r, s.txe.array = .muted r →
        exec .mute s = .next (answered m .done [] (w.setTxe { w.txe with array := .muted none })))
    ∧ ((∃ p, s.txe.array = .active p) ∨ (∃ c, s.txe.array.context = some c) ∨ (∃ h, s.txe.array = .halted h) →
      ∃ o t, exec .mute s = .next (answered m o [] t)
        ∧ ((∀ k : TowerIx, t.dsy.atRest k = true) → o = .done ∧ t.txe.array = .muted none
            ∧ t.scu = { s.scu with deferred := none }
            ∧ t.cmu = w.cmu.enterAll ([mutedNotice none 1 s] ++ discardedNotice s))
        ∧ ((∃ k : TowerIx, t.dsy.atRest k = false) → o = .started ∧ t.txe.array = .muting ∧ t.scu = s.scu
            ∧ t.cmu = w.cmu)
        ∧ t.txe.armed = none ∧ t.txe.seq = s.txe.seq ∧ t.txe.frame = s.txe.frame
        ∧ t.txe.history = (if s.txe.array.activeSlot.isSome then s.txe.history
                           else closeNewest .muted s.txe.now s.txe.history)
        ∧ t.ctu.units = s.ctu.units ∧ ((∀ h, s.txe.array ≠ .halted h) → t.ctu.guard = none)
        ∧ t.mon = s.mon.leaveActive ∧ t.rif = s.rif ∧ t.pst = s.pst ∧ t.ldu = s.ldu
        ∧ t.dsy = { s.dsy with towers := t.dsy.towers }
        ∧ ∀ k : TowerIx,
            (s.dsy.towers[k].order = .rest → t.dsy.towers[k] = s.dsy.towers[k])
            ∧ (s.dsy.towers[k].order ≠ .rest → s.dsy.towers[k].amp = 0 ∨ s.dsy.localPace = true →
                t.dsy.towers[k] = { s.dsy.towers[k] with order := .rest })
            ∧ (s.dsy.towers[k].order ≠ .rest → s.dsy.towers[k].amp ≠ 0 → s.dsy.localPace = false →
                t.dsy.towers[k] = { s.dsy.towers[k] with
                  order := .ramp { startAmp := s.dsy.towers[k].amp, target := .zero,
                                   startPhase := s.dsy.towers[k].phase, endAmp := 0,
                                   endPhase := s.dsy.towers[k].phase, length := muteLength m, step := 0,
                                   manner := .hold } }))

/-! ## Contactors -/

/-- R42, R43: a move request by the run state of its contactor (the position code in its notice: log 12), R40: the line that a
commanded position drives, and R50: MOVE hands it on in UNSET and MUTED and answers with what it gives. R70: the requests of
SWITCHING, one for each contactor of the list that is moving, with the awaited set and the memory of a contactor that moved
(log 11), given in the order of the list (log 34) up to an INTERLOCK, which halts with STUCK. -/
def Obligations.MoveRequestsAreTakenByState : Prop :=
  (∀ (c : ContactorIx) (p : Position) (s : State),
    (s.ctu.units[c].entry = none → moveRequest c p s = (s, .notValid))
    ∧ ∀ e, s.ctu.units[c].entry = some e →
      (e.state = .opened ∧ p = .opened ∨ e.state = .closed ∧ p = .closed → moveRequest c p s = (s, .done false))
      ∧ (∀ n, e.state = .toOpen n ∧ p = .opened ∨ e.state = .toClosed n ∧ p = .closed →
          moveRequest c p s = (s, .started))
      ∧ (e.state = .stuck ∨ e.state = .disagree
          ∨ (p = .opened ∧ (e.state = .closed ∨ ∃ n, e.state = .toClosed n))
          ∨ (p = .closed ∧ (e.state = .opened ∨ ∃ n, e.state = .toOpen n)) →
        ((∃ t : TowerIx, (e.assoc = .tower t ∨ e.assoc = .common) ∧ s.dsy.atRest t = false) →
            moveRequest c p s = (s, .interlock))
        ∧ ((∀ t : TowerIx, e.assoc = .tower t ∨ e.assoc = .common → s.dsy.atRest t = true) →
            (s.ctu.units[c].reading.agrees p = true → moveRequest c p s =
              ((s.setContactor c { e with commanded := p, state := standing p }).raise .contactorConfirmed
                (subjectOf c.val) [word p.code, 0, word e.limit], .done true))
            ∧ (s.ctu.units[c].reading.agrees p = false → moveRequest c p s =
                (s.setContactor c { e with commanded := p, state := travelFrom p }, .started)))))
  ∧ (∀ (p : Position) (x : ContactorState),
      (x.standsAt p = true ↔ x = .opened ∧ p = .opened ∨ x = .closed ∧ p = .closed)
      ∧ (x.travelsTo p = true ↔ ∃ n, x = .toOpen n ∧ p = .opened ∨ x = .toClosed n ∧ p = .closed)
      ∧ (∀ n, x.travel = some n ↔ x = .toOpen n ∨ x = .toClosed n)
      ∧ (standing p).standsAt p = true ∧ (travelFrom p).travelsTo p = true ∧ (travelFrom p).travel = some 0)
  ∧ (∀ (a : Assoc) (t : TowerIx), has a.towers t = true ↔ a = .tower t ∨ a = .common)
  ∧ (∀ (u : Ctu) (c : ContactorIx), u.line c = true ↔ ∃ e, u.units[c].entry = some e ∧ e.commanded = .closed)
  ∧ (∀ (c : ContactorIx) (e : Contactor) (s : State), s.setContactor c e = s.setCtu { s.ctu with
      units := setAt s.ctu.units c { s.ctu.units[c] with entry := some e } })
  ∧ (∀ (b : ContactorSet) (c k : ContactorIx), has b c = b.getLsbD c.val
      ∧ (has (insertIx b c) k = true ↔ has b k = true ∨ k = c))
  ∧ (∀ (c k : ContactorIx) (e : Contactor) (s : State),
      (s.setContactor c e).ctu.line k = if k = c then e.commanded == .closed else s.ctu.line k)
  ∧ (∀ (m : Mgmt) (s : State), Serves .move m s →
      let c := (moveParams m).1
      let p := (moveParams m).2
      c.val = field (m.param 0) 0 8 ∧ (p = .closed ↔ field (m.param 0) 8 8 = 1)
      ∧ (s.txe.array ≠ .unset → (∀ r, s.txe.array ≠ .muted r) → exec .move s = .next (answered m .wrongState [] s))
      ∧ (s.txe.array = .unset ∨ (∃ r, s.txe.array = .muted r) → ∃ o,
          exec .move s = .next (answered m o [] (moveRequest c p s).1)
          ∧ ((moveRequest c p s).2 = .notValid → o = .notValid) ∧ ((moveRequest c p s).2 = .interlock → o = .interlock)
          ∧ ((moveRequest c p s).2 = .started → o = .started)
          ∧ ∀ b, (moveRequest c p s).2 = .done b → o = .done))
  ∧ (∀ (x : TxContext) (s : State), giveMoves [] x s = (x, s, none))
  ∧ (∀ (c : ContactorIx) (p : Position) (rs : List (ContactorIx × Position)) (x : TxContext) (s : State),
      (s.ctu.units[c].entry = none → giveMoves ((c, p) :: rs) x s = giveMoves rs x s)
      ∧ ∀ e, s.ctu.units[c].entry = some e →
        let awaited := { x with awaited := insertIx x.awaited c, moved := true }
        (e.state.standsAt p = true → giveMoves ((c, p) :: rs) x s = giveMoves rs x s)
        ∧ (e.state.travelsTo p = true → giveMoves ((c, p) :: rs) x s = giveMoves rs awaited s)
        ∧ (e.state.standsAt p = false → e.state.travelsTo p = false → ∀ t a, moveRequest c p s = (t, a) →
          (a = .started → giveMoves ((c, p) :: rs) x s = giveMoves rs awaited t)
          ∧ (∀ b, a = .done b → giveMoves ((c, p) :: rs) x s = giveMoves rs { x with moved := x.moved || b } t)
          ∧ (a = .interlock → giveMoves ((c, p) :: rs) x s = (x, s, some c))))
  ∧ ∀ (c : TxContext) (s t : State) (x : TxContext) (b : Option ContactorIx),
      giveMoves (recRequirements (s.recordOf c.target)) { c with awaited := 0, moved := false } s = (x, t, b) →
      let u := t.setTxe { t.txe with array := .switching x }
      (b = none → enterSwitching c s = judgeSwitching u)
      ∧ ∀ k, b = some k → enterSwitching c s = halt .stuck (.contactor k) u

/-- R44: no command line changes while a tower associated with its contactor is not at rest. A move request, the moves of
SWITCHING, MOVE, CONTINUE and RETREAT change a line only with those towers at rest in the state they are taken in; so do the
at-rest reports of a frame; a frame row changes it only with those towers at amplitude zero as the frame begins (the order of
RAMP_DOWN puts such a tower in REST at once, R25) or shown IDLE, so at rest, by the frame itself (R27); a table replacement only
with all eight at rest; and no other row but the power rows changes any. -/
def Obligations.CommandLinesChangeOnlyAtRest : Prop :=
  (∀ (c k : ContactorIx) (p : Position) (s : State), (moveRequest c p s).1.ctu.line k ≠ s.ctu.line k →
    k = c ∧ ∃ e, s.ctu.units[k].entry = some e ∧ ∀ t : TowerIx, has e.assoc.towers t = true → s.dsy.atRest t = true)
  ∧ (∀ (rs : List (ContactorIx × Position)) (x : TxContext) (k : ContactorIx) (s : State),
      (giveMoves rs x s).2.1.ctu.line k ≠ s.ctu.line k →
      ∃ e, s.ctu.units[k].entry = some e ∧ ∀ t : TowerIx, has e.assoc.towers t = true → s.dsy.atRest t = true)
  ∧ (∀ (k : ContactorIx) (s : State), (takeAtRest s).ctu.line k ≠ s.ctu.line k →
      ∃ e, s.ctu.units[k].entry = some e ∧ ∀ t : TowerIx, has e.assoc.towers t = true → s.dsy.atRest t = true)
  ∧ (∀ (i : Instr) (k : ContactorIx) (s t : State), i = .move ∨ i = .continueTx ∨ i = .retreat →
      exec i s = .next t → t.ctu.line k ≠ s.ctu.line k →
      ∃ e, s.ctu.units[k].entry = some e ∧ ∀ j : TowerIx, has e.assoc.towers j = true → s.dsy.atRest j = true)
  ∧ (∀ (i : Instr) (k : ContactorIx) (s t : State),
      (∃ rx, i = .sampleFrame rx) ∨ i = .missedFrame ∨ i = .localPaceFrame →
      exec i s = .next t → t.ctu.line k ≠ s.ctu.line k →
      ∃ e, s.ctu.units[k].entry = some e ∧ ∀ j : TowerIx, has e.assoc.towers j = true →
        s.dsy.towers[j].amp = 0 ∨ ∃ d, t.dsy.towers[j].port = some d ∧ d.state = .idle)
  ∧ (∀ (x : Target) (k : ContactorIx) (s t : State), exec (.checkCompletion x) s = .next t →
      t.ctu.line k ≠ s.ctu.line k → ∀ j : TowerIx, s.dsy.atRest j = true)
  ∧ (∀ (i : Instr) (k : ContactorIx) (s t : State), exec i s = .next t → t.ctu.line k ≠ s.ctu.line k →
      (∃ a, i = .powerOnReset a) ∨ i = .resetAsserted ∨ (∃ rx, i = .sampleFrame rx) ∨ i = .missedFrame
      ∨ i = .localPaceFrame ∨ i = .continueTx ∨ i = .retreat ∨ i = .move ∨ ∃ x, i = .checkCompletion x)

/-- R41: an auxiliary input that shows another level than the debounced one starts its debounce, or goes on with it; one that
returns stops it. A completed debounce sets that input's debounced level to its line and stops its timer, and leaves the other
input and the contactor as they are (what the change of reading does then: O32). Only the input named changes. The reading,
and the position it agrees with. The codes of readings, contactor states and positions (R176; positions: log 12); while RESET
is asserted only the line is followed (log 7). -/
def Obligations.AuxiliaryInputsAreDebounced : Prop :=
  (∀ (c : ContactorIx) (b : Bool) (s : State),
    (exec (.auxInputChange c .showsOpen b) s = .next (s.onUnit c fun u =>
      if s.running = true then
        { u with openLine := b, openTimer := if b = u.openShown then none else some (u.openTimer.getD 0) }
      else { u with openLine := b }))
    ∧ (exec (.auxInputChange c .showsClosed b) s = .next (s.onUnit c fun u =>
      if s.running = true then
        { u with closedLine := b, closedTimer := if b = u.closedShown then none else some (u.closedTimer.getD 0) }
      else { u with closedLine := b })))
  ∧ (∀ (c : ContactorIx) (f : ContactorUnit → ContactorUnit) (s : State), s.onUnit c f
      = s.setCtu { s.ctu with units := setAt s.ctu.units c (f s.ctu.units[c]) })
  ∧ (∀ u : ContactorUnit, u.debounced .showsOpen = { u with openShown := u.openLine, openTimer := none }
      ∧ u.debounced .showsClosed = { u with closedShown := u.closedLine, closedTimer := none }
      ∧ (u.debouncing .showsOpen = true ↔ u.openTimer ≠ none) ∧ (u.debouncing .showsClosed = true ↔ u.closedTimer ≠ none))
  ∧ (∀ u : ContactorUnit, (u.reading = .showsOpen ↔ u.openShown = true ∧ u.closedShown = false)
      ∧ (u.reading = .showsClosed ↔ u.openShown = false ∧ u.closedShown = true)
      ∧ (u.reading = .neither ↔ u.openShown = false ∧ u.closedShown = false)
      ∧ (u.reading = .both ↔ u.openShown = true ∧ u.closedShown = true))
  ∧ (∀ (r : Reading) (p : Position), r.agrees p = true ↔ r = .showsOpen ∧ p = .opened ∨ r = .showsClosed ∧ p = .closed)
  ∧ [Reading.showsOpen, .showsClosed, .neither, .both].map Reading.code = [1, 2, 3, 4]
  ∧ (∀ n : Nat, [ContactorState.opened, .closed, .toOpen n, .toClosed n, .stuck, .disagree].map ContactorState.code
      = [1, 2, 3, 4, 5, 6])
  ∧ [Position.opened, .closed].map Position.code = [0, 1]

/-- R41, R45, R47, R48, R49, R89: a completed debounce sets the debounced level (`debounced`, which O31 writes out); a changed
reading moves a defined contactor through its states, its commanded position and every line staying; TXE then takes the
report, and a drift forces the contactor's towers to zero and halts the array. R71: a confirmed or agree report leaves the
awaited set and judges the exit of SWITCHING, as a disagree report does; with both its conditions met the guard names the
target and the array goes to SETTLE if a contactor moved, otherwise on. (Where no debounce runs nothing changes: log 2.
Position codes in the notices: log 12. A guard order could give drift reports, but the exit leaves none to give: log 26.) -/
def Obligations.ReadingsMoveTheContactorStates : Prop :=
  ∀ (c : ContactorIx) (i : AuxInput) (s : State), Counting s →
    (s.ctu.units[c].debouncing i = false → exec (.auxDebounceExpiry c i) s = .next s)
    ∧ (s.ctu.units[c].debouncing i = true →
      let u := s.onUnit c fun x => x.debounced i
      let r := u.ctu.units[c].reading
      (r = s.ctu.units[c].reading ∨ s.ctu.units[c].entry = none → exec (.auxDebounceExpiry c i) s = .next u)
      ∧ (∀ e, s.ctu.units[c].entry = some e → r ≠ s.ctu.units[c].reading →
        let confirmed := fun n => takeReport c .confirmed ((u.setContactor c { e with state := standing e.commanded }).raise
          .contactorConfirmed (subjectOf c.val) [word e.commanded.code, word n, word e.limit])
        let disagrees := takeReport c (.disagree (isDrift s c)) ((u.setContactor c { e with state := .disagree }).raise
          .contactorDisagree (subjectOf c.val)
            [word e.commanded.code, word r.code, word (e.state.code + if isDrift s c then 32768 else 0)])
        (∀ n, e.state = .toOpen n ∨ e.state = .toClosed n →
          (r.agrees e.commanded = true → exec (.auxDebounceExpiry c i) s = .next (confirmed n))
          ∧ (r = .both → exec (.auxDebounceExpiry c i) s = .next disagrees)
          ∧ (r.agrees e.commanded = false → r ≠ .both → exec (.auxDebounceExpiry c i) s = .next u))
        ∧ (e.state = .opened ∨ e.state = .closed →
          (r.agrees e.commanded = true → exec (.auxDebounceExpiry c i) s = .next u)
          ∧ (r.agrees e.commanded = false → exec (.auxDebounceExpiry c i) s = .next disagrees))
        ∧ (e.state = .stuck → (r = .both → exec (.auxDebounceExpiry c i) s = .next disagrees)
          ∧ (r ≠ .both → exec (.auxDebounceExpiry c i) s = .next u))
        ∧ (e.state = .disagree →
          (r.agrees e.commanded = true → exec (.auxDebounceExpiry c i) s = .next (takeReport c .agree
            ((u.setContactor c { e with state := standing e.commanded }).raise .contactorAgree (subjectOf c.val)
              [word e.commanded.code])))
          ∧ (r.agrees e.commanded = false → exec (.auxDebounceExpiry c i) s = .next u)))
      ∧ (∀ t, exec (.auxDebounceExpiry c i) s = .next t →
          (∀ k, k ≠ c → t.ctu.units[k] = s.ctu.units[k]) ∧ (∀ k, t.ctu.line k = s.ctu.line k)
          ∧ t.rif = s.rif ∧ t.pst = s.pst ∧ t.ldu = s.ldu))
    ∧ (∀ d : State, (isDrift s c = true ↔ ∃ k, s.ctu.guard = some k ∧ ∃ p, (c, p) ∈ recRequirements (s.recordOf k))
        ∧ (takesDrift d.txe.array = true ↔ (∃ p, d.txe.array = .active p) ∨ (∃ x n, d.txe.array = .settle x n)
            ∨ (∃ x g, d.txe.array = .readyUp x g) ∨ ∃ x e, d.txe.array = .rampUp x e)
        ∧ (takesDrift d.txe.array = false → takeReport c (.disagree true) d = d)
        ∧ (takesDrift d.txe.array = true → ∃ v : State, takeReport c (.disagree true) d = halt .drift (.contactor c) v
            ∧ v = d.setDsy { d.dsy with towers := v.dsy.towers }
            ∧ (d.ctu.units[c].entry = none → v = d)
            ∧ (∀ e, d.ctu.units[c].entry = some e → ∀ t : TowerIx, v.dsy.towers[t]
                = if e.assoc = .tower t ∨ e.assoc = .common then { d.dsy.towers[t] with order := .rest }
                  else d.dsy.towers[t])
            ∧ ∃ h, (takeReport c (.disagree true) d).txe.array = .halted h ∧ h.reason = .drift
              ∧ h.subject = .contactor c
              ∧ ∀ e, d.ctu.units[c].entry = some e → ∀ t : TowerIx, e.assoc = .tower t ∨ e.assoc = .common →
                  (takeReport c (.disagree true) d).dsy.towers[t].order = .rest)
        ∧ takeReport c (.disagree false) d = judgeSwitching d
        ∧ takeReport c .agree d = takeReport c .confirmed d
        ∧ ((∀ x, d.txe.array ≠ .switching x) → takeReport c .confirmed d = d ∧ judgeSwitching d = d)
        ∧ ∀ x, d.txe.array = .switching x →
          (∃ m : ContactorSet, takeReport c .confirmed d
              = judgeSwitching (d.setTxe { d.txe with array := .switching { x with awaited := m } })
            ∧ ∀ k, has m k = true ↔ has x.awaited k = true ∧ k ≠ c)
          ∧ (let stand := ∀ r ∈ recRequirements (d.recordOf x.target), ∃ e, d.ctu.units[r.1].entry = some e
               ∧ e.state.standsAt r.2 = true
             let travel := ∃ (k : ContactorIx) (e : Contactor) (t : TowerIx), d.ctu.units[k].entry = some e
               ∧ e.state.travel ≠ none ∧ has e.assoc.towers t = true
               ∧ has (recTowers (d.recordOf x.target)) t = true ∧ has x.blend t = false
             let u := d.setCtu { d.ctu with guard := some x.target }
             (¬ stand ∨ travel → judgeSwitching d = d)
             ∧ (stand → ¬ travel → judgeSwitching d = if x.moved then enterSettle x u else afterSettle x u)))
    ∧ ∀ (x : TxContext) (d : State), let u := d.setCtu { d.ctu with guard := some x.target }
        leaveSwitching x d = (((recRequirements (d.recordOf x.target)).map (·.1)).filter fun k =>
            (d.ctu.units[k].entry.map (·.state)) == some .disagree).foldl (fun v k => takeReport k (.disagree true) v)
          (if x.moved then enterSettle x u else afterSettle x u)

/-- R46, R72, R78: the expiries of the travel limit, the settle timer and the gate timer. A travel that runs out is STUCK with
its position, line and reading as they were, and in SWITCHING the array halts with STUCK; the settle timer leads to READY_UP
or RAMP_UP, at once where the settle time is 0; the gate timer halts with GATE. Where the timer does not run nothing changes
(log 2); the position code in CONTACTOR_STUCK is log 12's. -/
def Obligations.TravelSettleAndGateExpiries : Prop :=
  (∀ (x : TxContext) (s : State),
    (recSettle (s.recordOf x.target) = 0 → enterSettle x s = afterSettle x (s.setTxe { s.txe with array := .settle x 0 }))
    ∧ (recSettle (s.recordOf x.target) ≠ 0 → enterSettle x s = s.setTxe { s.txe with array := .settle x 0 })
    ∧ (x.joint = none → afterSettle x s = startRampUp x s)
    ∧ ∀ g, x.joint = some g → afterSettle x s
        = (s.setTxe { s.txe with array := .readyUp x (.awaiting 0) }).raise .txReadyUp (subjectOf x.target.val)
            [s.txe.newestSeq, word g])
  ∧ ∀ s : State, Counting s →
    (∀ c : ContactorIx,
      ((∀ e, s.ctu.units[c].entry = some e → e.state.travel = none) → exec (.travelLimitExpiry c) s = .next s)
      ∧ ∀ e n, s.ctu.units[c].entry = some e → e.state.travel = some n →
        let u := (s.setContactor c { e with state := .stuck }).raise .contactorStuck (subjectOf c.val)
          [word e.commanded.code, word s.ctu.units[c].reading.code]
        u.ctu.line = s.ctu.line
        ∧ ((∀ x, s.txe.array ≠ .switching x) → exec (.travelLimitExpiry c) s = .next u)
        ∧ (∀ x, s.txe.array = .switching x → let t := halt .stuck (.contactor c) u
            exec (.travelLimitExpiry c) s = .next t ∧ t.ctu = { u.ctu with guard := none }
            ∧ ∃ h, t.txe.array = .halted h ∧ h.reason = .stuck ∧ h.subject = .contactor c ∧ h.step = .switching
              ∧ h.source = x.source ∧ h.target = x.target))
    ∧ ((∀ x n, s.txe.array ≠ .settle x n) → exec .settleTimerExpiry s = .next s)
    ∧ (∀ x n, s.txe.array = .settle x n →
        (x.joint = none → exec .settleTimerExpiry s = .next (startRampUp x s))
        ∧ ∀ g, x.joint = some g → exec .settleTimerExpiry s
            = .next ((s.setTxe { s.txe with array := .readyUp x (.awaiting 0) }).raise .txReadyUp
                (subjectOf x.target.val) [s.txe.newestSeq, word g]))
    ∧ ((∀ x n, s.txe.array ≠ .readyUp x (.awaiting n)) → exec .gateTimerExpiry s = .next s)
    ∧ (∀ x n, s.txe.array = .readyUp x (.awaiting n) → let t := halt .gate .none s
        exec .gateTimerExpiry s = .next t ∧ t.ctu = { s.ctu with guard := none }
        ∧ ∃ h, t.txe.array = .halted h ∧ h.reason = .gate ∧ h.subject = .none ∧ h.step = .readyUp
          ∧ h.source = x.source ∧ h.target = x.target)

/-! ## Interlock and cabinets -/

/-- R34, R35, R103: the ILK line. An opening in CLOSED makes the state OPEN, every tower REST, nothing armed and no resume
pattern; ACTIVE and MUTING go to MUTED, a phase halts with INTERLOCK, HALTED and UNSET stay. An entry to MUTED or HALTED makes
MON leave ACTIVE and discards the deferred entry (R108, R132); where the array stays, MON and SCU do. A halt keeps the context
of its phase and is counted in its record (R84, R85; O49). The notices in their order: INTERLOCK_OPENED, ARMED_WITHDRAWN
(INTERLOCK) (R61), what the array gives (MUTED with INTERLOCK, R99; TX_HALTED, R85), the deferred entry discarded (R132), and
TX_AT_REST of a halt whose towers the forcing brings to rest (R88; at the opening itself: log 39). A closed line starts a
qualification, whose end closes the state and changes nothing else. (Where no qualification runs its end changes nothing: log
2; while RESET is asserted only the line is followed: log 7.) -/
def Obligations.InterlockFollowsItsLine : Prop :=
  (∀ s : State,
    (s.running = false ∨ s.dsy.ilkClosed = false → exec .interlockOpening s
      = .next (s.setDsy { s.dsy with ilkLine := false, ilkTimer := none }))
    ∧ (s.running = true → s.dsy.ilkClosed = true → ∃ t, exec .interlockOpening s = .next t
      ∧ t.dsy.ilkClosed = false ∧ t.dsy.ilkLine = false ∧ t.dsy.ilkTimer = none
      ∧ (∀ k : TowerIx, t.dsy.towers[k] = { s.dsy.towers[k] with order := .rest })
      ∧ t.dsy = { s.dsy with ilkClosed := false, ilkLine := false, ilkTimer := none, towers := t.dsy.towers }
      ∧ t.txe.armed = none ∧ t.txe.seq = s.txe.seq ∧ t.txe.frame = s.txe.frame
      ∧ t.rif = s.rif ∧ t.pst = s.pst ∧ t.ldu = s.ldu ∧ t.ctu.units = s.ctu.units
      ∧ ((∃ p, s.txe.array = .active p) ∨ (∃ c, s.txe.array.context = some c) ∨ s.txe.array = .muting →
          t.mon = s.mon.leaveActive ∧ t.scu = { s.scu with deferred := none })
      ∧ (s.txe.array = .unset ∨ (∃ r, s.txe.array = .muted r) ∨ (∃ h, s.txe.array = .halted h) →
          t.mon = s.mon ∧ t.scu = s.scu ∧ t.ctu = s.ctu)
      ∧ ((∀ c, s.txe.array.context ≠ some c) → t.txe.history = s.txe.history)
      ∧ (let opened := [Record.notice .interlockOpened s.stamp none none []] ++ withdrawnNotice 7 s
        (∀ p, s.txe.array = .active p → t.txe.array = .muted none ∧ t.txe.history = s.txe.history ∧ t.ctu.guard = none
          ∧ t.cmu = s.cmu.enterAll (opened ++ [mutedNotice none 3 s] ++ discardedNotice s))
        ∧ (∀ c, s.txe.array.context = some c → t.ctu.guard = none ∧ ∃ h, t.txe.array = .halted h ∧ h.reason = .interlock
          ∧ h.subject = .none ∧ h.cause = c.cause ∧ h.source = c.source ∧ h.target = c.target ∧ h.mode = c.mode
          ∧ h.joint = c.joint ∧ h.upLen = c.upLen ∧ h.seq = s.txe.newestSeq
          ∧ (∀ v, haltView s = some v → h.step = v.step)
          ∧ (∀ r rs, s.txe.history = r :: rs →
              t.txe.history = { r with outcome := .opened, endFrame := none, halts := min 255 (r.halts + 1) } :: rs)
          ∧ (h.restNoticed = true ↔ ∀ k : TowerIx, t.dsy.atRest k = true)
          ∧ t.cmu = s.cmu.enterAll (opened ++ [haltedNotice h s] ++ (if h.restNoticed then [atRestNotice h s] else [])
              ++ discardedNotice s))
        ∧ (s.txe.array = .muting → t.txe.array = .muted none ∧ t.ctu = s.ctu
          ∧ t.cmu = s.cmu.enterAll (opened ++ [mutedNotice none 3 s] ++ discardedNotice s))
        ∧ (∀ r, s.txe.array = .muted r → t.txe.array = .muted none ∧ t.cmu = s.cmu.enterAll opened)
        ∧ (s.txe.array = .unset → t.txe.array = .unset ∧ t.cmu = s.cmu.enterAll opened)
        ∧ (∀ h, s.txe.array = .halted h → ∃ b, t.txe.array = .halted { h with restNoticed := b }
          ∧ (b = true ↔ h.restNoticed = true ∨ ∀ k : TowerIx, t.dsy.atRest k = true)
          ∧ t.cmu = s.cmu.enterAll (opened ++ if b = true ∧ h.restNoticed = false then [atRestNotice h s] else [])))))
  ∧ (∀ s : State,
    (s.running = true → s.dsy.ilkClosed = false → exec .interlockLineClosed s
      = .next (s.setDsy { s.dsy with ilkLine := true, ilkTimer := some (s.dsy.ilkTimer.getD 0) }))
    ∧ (s.running = false ∨ s.dsy.ilkClosed = true → exec .interlockLineClosed s
      = .next (s.setDsy { s.dsy with ilkLine := true })))
  ∧ (∀ s : State, Counting s →
    (s.dsy.ilkTimer = none ∨ s.dsy.ilkClosed = true → exec .interlockQualified s = .next s)
    ∧ (s.dsy.ilkTimer ≠ none → s.dsy.ilkClosed = false → exec .interlockQualified s
      = .next ((s.setDsy { s.dsy with ilkClosed := true, ilkTimer := none }).raise .interlockClosed none [])))

/-- R36, R74: the RDY lines and their debounce; a cabinet lost in RAMP_UP from the target's set halts with CABINET. (Where no
debounce runs its end changes nothing: log 2; while RESET is asserted only the line is followed: log 7.) -/
def Obligations.CabinetReadyIsDebounced : Prop :=
  (∀ (t : TowerIx) (b : Bool) (s : State), ∃ u, exec (.rdyLineChange t b) s = .next u
    ∧ u = s.setDsy { s.dsy with towers := u.dsy.towers }
    ∧ (∀ k : TowerIx, k ≠ t → u.dsy.towers[k] = s.dsy.towers[k])
    ∧ u.dsy.towers[t] = { s.dsy.towers[t] with
        rdyLine := b
        debounce := if s.running = false then s.dsy.towers[t].debounce
                    else if b = s.dsy.towers[t].ready then none else some (s.dsy.towers[t].debounce.getD 0) })
  ∧ (∀ (t : TowerIx) (s : State), Counting s →
    (s.dsy.towers[t].debounce = none ∨ s.dsy.towers[t].rdyLine = s.dsy.towers[t].ready →
      exec (.cabinetDebounceExpiry t) s = .next s)
    ∧ (s.dsy.towers[t].debounce ≠ none →
      let u := s.setDsy { s.dsy with
        towers := setAt s.dsy.towers t { s.dsy.towers[t] with ready := s.dsy.towers[t].rdyLine, debounce := none } }
      (s.dsy.towers[t].rdyLine = true → s.dsy.towers[t].ready = false →
        exec (.cabinetDebounceExpiry t) s = .next (u.raise .cabinetReady (subjectOf t.val) []))
      ∧ (s.dsy.towers[t].rdyLine = false → s.dsy.towers[t].ready = true →
        let v := u.raise .cabinetFault (subjectOf t.val) []
        (∀ c e, s.txe.array = .rampUp c e → has (recTowers (s.recordOf c.target)) t = true →
          let w := halt .cabinet (.tower t) v
          exec (.cabinetDebounceExpiry t) s = .next w ∧ w.ctu = { s.ctu with guard := none }
          ∧ ∃ h, w.txe.array = .halted h ∧ h.reason = .cabinet ∧ h.subject = .tower t ∧ h.step = .rampUp
            ∧ h.source = c.source ∧ h.target = c.target)
        ∧ ((∀ c e, s.txe.array = .rampUp c e → has (recTowers (s.recordOf c.target)) t = false) →
          exec (.cabinetDebounceExpiry t) s = .next v))))

/-! ## Acknowledgement and the schedule hold -/

/-- R116: ACK_FAULT clears the fallback-spent flag and every out count, makes FAULT and OUT OUT, and answers with the number
of towers that were in FAULT; nothing else changes. It has no parameters and may be broadcast. A tower it made OUT returns to
IN at an evaluation in tolerance, and otherwise counts again from 1. -/
def Obligations.AckFaultClearsTheFaults : Prop :=
  (∀ (m : Mgmt) (s : State), Serves .ackFault m s → ∃ u : Mon,
    exec .ackFault s = .next (answered m .done
      [word ((List.finRange 8).filter fun k => s.mon.towers[k].status == .fault).length] (s.setMon u))
    ∧ u = { s.mon with spent := false, towers := u.towers }
    ∧ ∀ k : TowerIx, u.towers[k].count = 0 ∧ u.towers[k].limitNoticed = s.mon.towers[k].limitNoticed
        ∧ (s.mon.towers[k].status = .fault ∨ s.mon.towers[k].status = .out → u.towers[k].status = .out)
        ∧ (s.mon.towers[k].status ≠ .fault → s.mon.towers[k].status ≠ .out →
            u.towers[k].status = s.mon.towers[k].status))
  ∧ (∀ m : Mgmt, precheck .ackFault m = none ↔ m.params = [])
  ∧ ∀ (w : Nat → Word) (t : TowerIx) (r : Nat) (a : Int) (q : BitVec 8) (s : State),
      s.mon.towers[t].status = .out → s.mon.towers[t].count = 0 →
      let x := (judgeTower w t r a q s).mon.towers[t]
      let tolerated := ((r : Int) - recRatio w t).natAbs * 1000 ≤ recRatioTol w t * recRatio w t
        ∧ (fold (a - recLicPhase w t)).natAbs ≤ recPhaseTol w t
      (tolerated → x.status = .inTol ∧ x.count = 0)
      ∧ (¬ tolerated → 1 < recGrace w → x.status = .out ∧ x.count = 1)
      ∧ (¬ tolerated → recGrace w ≤ 1 → x.status = .fault)

/-- R133, R134: SCHEDULE_HOLD ON and OFF (bit 0 and bit 1 of its word, 11.2). That OFF names the entry it ended by one data
word is the model's reading (log 14). -/
def Obligations.ScheduleHoldSetsAndEndsTheHold : Prop :=
  ∀ (m : Mgmt) (s : State), Serves .scheduleHold m s →
    ((m.param 0).getLsbD 0 = true →
      (s.scu.hold = true → exec .scheduleHold s = .next (answered m .done [] s))
      ∧ (s.scu.hold = false → s.scu.deferred = none →
          exec .scheduleHold s = .next (answered m .done [] (s.setScu { s.scu with hold := true })))
      ∧ (∀ o, s.scu.hold = false → s.scu.deferred = some o →
          exec .scheduleHold s = .next (answered m .done [] (raiseDue o .missed .hold none
            (s.setScu { s.scu with hold := true, deferred := none, held := some o })))))
    ∧ ((m.param 0).getLsbD 0 = false →
      (s.scu.hold = false → exec .scheduleHold s = .next (answered m .done [] s))
      ∧ (s.scu.hold = true → s.scu.held = none →
          exec .scheduleHold s = .next (answered m .done [] (s.setScu { s.scu with hold := false })))
      ∧ ∀ o, s.scu.hold = true → s.scu.held = some o →
          let u := s.setScu { s.scu with hold := false, held := none }
          ((m.param 0).getLsbD 1 = false → exec .scheduleHold s
              = .next (answered m .done [word o.entry.val] (raiseDue o .missed .dropped none u)))
          ∧ ((m.param 0).getLsbD 1 = true →
              exec .scheduleHold s = .next (answered m .done [word o.entry.val] (actOn o none u))
              ∧ ∀ e v a, s.scu.table[o.entry] = some e → request e.target e.mode none .schedule u = (v, a) →
                  actOn o none u = settleDue o a v))

/-! ## Loading -/

/-- R138, R139, R4: the checks of CLAIM in order; one that is taken makes the target LOADING with its region or staging area
all zero, and leaves every other claim, region, word and trim as it was. R2: the region a directory entry holds, and when a
slot is VALID. -/
def Obligations.ClaimStartsALoad : Prop :=
  (∀ c : Claim, c.isChecking = true ↔ ∃ e n, c.phase = .checking e n)
  ∧ (∀ (b l : Nat) (h : BitVec 3) (v : Word) (x : Label),
      [SlotEntry.empty, .loading b l h, .checking b l h, .valid b l v x].map (fun e => (e.region, e.isValid))
        = [(none, false), (some (b, l), false), (some (b, l), false), (some (b, l), true)])
  ∧ (∀ (p : Pst) (k : Slot), p.isValid k = p.dir[k].isValid ∧ (∀ u : TowerIx, p.trim k u = p.trims[k][u])
      ∧ ∀ b l v x, p.dir[k] = .valid b l v x → p.label k = x)
  ∧ ∀ (m : Mgmt) (s : State), Serves .claim m s →
    let x := targetParam m
    let base := m.num 1
    let len := m.num 2
    let seg := if m.num 3 = 0 then 64 else m.num 3
    let meets := fun (k j : Slot) => j ≠ k ∧ ∃ r, s.pst.dir[j].region = some r ∧ base < r.1 + r.2 ∧ r.1 < base + len
    x.val = m.num 0
    ∧ (∀ c, s.ldu.claims[x] = some c → c.holder ≠ m.source →
        exec .claim s = .next (answered m .heldBy [c.holder.setWidth 16] s))
    ∧ (∀ c, s.ldu.claims[x] = some c → c.holder = m.source → c.isChecking = true →
        exec .claim s = .next (answered m .wrongState [] s))
    ∧ ((∀ c, s.ldu.claims[x] = some c → c.holder = m.source ∧ c.isChecking = false) →
      (∀ k : Slot, x = slotTarget k → s.txe.inUse k = true → exec .claim s = .next (answered m .inUse [] s))
      ∧ ((∀ k : Slot, x = slotTarget k → s.txe.inUse k = false) →
        let tooLong := (x.val < 16 ∧ 2048 < base + len) ∨ (x.val = 16 ∧ 73 < len) ∨ (x.val = 17 ∧ 145 < len)
        (tooLong → exec .claim s = .next (answered m .range [] s))
        ∧ (¬ tooLong →
          (∀ k j : Slot, x = slotTarget k → meets k j → (∀ i : Slot, i < j → ¬ meets k i) →
            exec .claim s = .next (answered m .overlap [word j.val] s))
          ∧ ((∀ k j : Slot, x = slotTarget k → ¬ meets k j) → ∃ t,
            exec .claim s = .next (answered m .done [word len, word seg] t)
            ∧ t = (s.setPst t.pst).setLdu t.ldu
            ∧ t.ldu.claims[x] = some { phase := .loading 0, holder := m.source, length := len, segment := seg,
                                       running := 0, committed := 0 }
            ∧ (∀ y, y ≠ x → t.ldu.claims[y] = s.ldu.claims[y])
            ∧ t.ldu.buf = (if (s.ldu.buf.map (·.owner)) = some x then none else s.ldu.buf)
            ∧ t.ldu.staging16 = (if x.val = 16 then [] else s.ldu.staging16)
            ∧ t.ldu.staging17 = (if x.val = 17 then [] else s.ldu.staging17)
            ∧ (16 ≤ x.val → t.pst = s.pst)
            ∧ ∀ k : Slot, x = slotTarget k →
                t.pst.dir[k] = .loading base len m.source
                ∧ (∀ j : Slot, j ≠ k → t.pst.dir[j] = s.pst.dir[j])
                ∧ (∀ a, t.pst.store.read a = if base ≤ a ∧ a < base + len then 0 else s.pst.store.read a)
                ∧ (∀ u : TowerIx, t.pst.trim k u = { amp := 0, phase := 0 })
                ∧ (∀ (j : Slot) (u : TowerIx), j ≠ k → t.pst.trim j u = s.pst.trim j u)))))

/-- R142, R143, R141, R8: the checks of LOAD in order; one that is taken appends its words to the buffered ones, writes every
full segment, keeps the rest buffered, and moves the offsets; every other word of every region and staging area stays. R1, R136:
what word k of a target's region is. -/
def Obligations.LoadWritesFullSegments : Prop :=
  (∀ m : Mgmt, precheck .load m = none ↔
      m.dest ≠ 0 ∧ 3 ≤ m.params.length ∧ m.params.length ≤ 56 ∧ m.num 0 ≤ 17 ∧ m.num 1 ≤ 2047)
  ∧ (∀ (s : State) (x : Target) (k : Slot) (i : Nat),
      (x = slotTarget k → regionWord s x i = s.recordOf k i)
      ∧ (x.val = 16 → regionWord s x i = s.ldu.staging16.read i) ∧ (x.val = 17 → regionWord s x i = s.ldu.staging17.read i)
      ∧ (s.pst.dir[k].region = none → s.recordOf k i = 0)
      ∧ ∀ b l, s.pst.dir[k].region = some (b, l) → s.recordOf k i = if i < l then s.pst.store.read (b + i) else 0)
  ∧ ∀ (m : Mgmt) (s : State), Serves .load m s →
    let x := targetParam m
    let ws := m.params.drop 2
    (s.ldu.claims[x] = none → exec .load s = .next (answered m .notClaimed [] s))
    ∧ ∀ c, s.ldu.claims[x] = some c →
      (c.holder ≠ m.source → exec .load s = .next (answered m .heldBy [c.holder.setWidth 16] s))
      ∧ (c.holder = m.source → c.isChecking = true → exec .load s = .next (answered m .wrongState [] s))
      ∧ (c.holder = m.source → c.isChecking = false →
        (∀ b, s.ldu.buf = some b → b.owner ≠ x → exec .load s = .next (answered m .bufferBusy [word b.owner.val] s))
        ∧ ((∀ b, s.ldu.buf = some b → b.owner = x) →
          (m.num 1 ≠ c.running → exec .load s = .next (answered m .offset [word c.running, word c.committed] s))
          ∧ (m.num 1 = c.running →
            (c.length < m.num 1 + ws.length → exec .load s = .next (answered m .range [word c.length] s))
            ∧ (m.num 1 + ws.length ≤ c.length → InUseLaw s → LoadLaw s → StoreLaw s →
              let all := (s.ldu.buf.map (·.words)).getD [] ++ ws
              let start := (s.ldu.buf.map (·.start)).getD c.running
              let n := all.length / c.segment
              let committed := if n = 0 then c.committed else max c.committed (start + n * c.segment)
              ∃ t, exec .load s = .next (answered m .done [word (c.running + ws.length), word committed, word n] t)
                ∧ t = (s.setPst { s.pst with store := t.pst.store }).setLdu t.ldu
                ∧ t.ldu.claims[x] = some { c with phase := .loading 0, running := c.running + ws.length,
                                                  committed := committed }
                ∧ (∀ y, y ≠ x → t.ldu.claims[y] = s.ldu.claims[y])
                ∧ t.ldu.buf = (if all.length % c.segment = 0 then none
                    else some { owner := x, start := start + n * c.segment, words := all.drop (n * c.segment) })
                ∧ (∀ k, regionWord t x k = if start ≤ k ∧ k < start + n * c.segment then all.getD (k - start) 0
                                           else regionWord s x k)
                ∧ ∀ y k, y ≠ x → regionWord t y k = regionWord s y k))))

/-- R144: the checks of COMMIT; one that is taken writes the buffered words of its target as a short segment, moves the
running offset to the resume offset, and restarts the lapse timer. -/
def Obligations.CommitWritesTheBufferedWords : Prop :=
  (∀ m : Mgmt, precheck .commit m = none ↔
      m.dest ≠ 0 ∧ m.params.length = 2 ∧ m.num 0 ≤ 17 ∧ (m.num 1 ≤ 2047 ∨ m.num 1 = 65535))
  ∧ ∀ (m : Mgmt) (s : State), Serves .commit m s →
    let x := targetParam m
    (s.ldu.claims[x] = none → exec .commit s = .next (answered m .notClaimed [] s))
    ∧ ∀ c, s.ldu.claims[x] = some c →
      (c.holder ≠ m.source → exec .commit s = .next (answered m .heldBy [c.holder.setWidth 16] s))
      ∧ (c.holder = m.source → c.isChecking = true → exec .commit s = .next (answered m .wrongState [] s))
      ∧ (c.holder = m.source → c.isChecking = false →
        (∀ b, s.ldu.buf = some b → b.owner = x →
          let committed := max c.committed (b.start + b.words.length)
          (m.num 1 ≠ 65535 → committed < m.num 1 →
            exec .commit s = .next (answered m .offset [word c.running, word c.committed] s))
          ∧ (m.num 1 = 65535 ∨ m.num 1 ≤ committed → InUseLaw s → LoadLaw s → StoreLaw s →
            let running := if m.num 1 = 65535 then c.running else m.num 1
            ∃ t, exec .commit s = .next (answered m .done [word running, word committed] t)
              ∧ t = (s.setPst { s.pst with store := t.pst.store }).setLdu t.ldu
              ∧ t.ldu.claims[x] = some { c with phase := .loading 0, running := running, committed := committed }
              ∧ (∀ y, y ≠ x → t.ldu.claims[y] = s.ldu.claims[y]) ∧ t.ldu.buf = none
              ∧ (∀ k, regionWord t x k = if b.start ≤ k ∧ k < b.start + b.words.length then b.words.getD (k - b.start) 0
                                         else regionWord s x k)
              ∧ ∀ y k, y ≠ x → regionWord t y k = regionWord s y k))
        ∧ ((∀ b, s.ldu.buf = some b → b.owner ≠ x) →
          (m.num 1 ≠ 65535 → c.committed < m.num 1 →
            exec .commit s = .next (answered m .offset [word c.running, word c.committed] s))
          ∧ (m.num 1 = 65535 ∨ m.num 1 ≤ c.committed →
            let running := if m.num 1 = 65535 then c.running else m.num 1
            exec .commit s = .next (answered m .empty [word running, word c.committed]
              (s.setLdu { s.ldu with
                claims := setAt s.ldu.claims x (some { c with phase := .loading 0, running := running }) })))))

/-- R145, R5: the checks of FINISH; one that is taken writes the buffered words, makes the target CHECKING with the expected
value, and answers STARTED with the committed offset. R52, R145: for target 16 the staged table is read with its buffered words
as though written, a contactor is defined in it by an entry below both the count word and 24, and REFERENCED names the lowest
VALID slot with a contactor missing and the first such contactor of its list. -/
def Obligations.FinishStartsTheCheck : Prop :=
  (∀ (s : State) (k : Nat),
    (∀ b, s.ldu.buf = some b → b.owner.val = 16 → stagedView s k
        = if b.start ≤ k ∧ k < b.start + b.words.length then b.words.getD (k - b.start) 0 else s.ldu.staging16.read k)
    ∧ ((∀ b, s.ldu.buf = some b → b.owner.val ≠ 16) → stagedView s k = s.ldu.staging16.read k))
  ∧ (∀ (w : Nat → Word) (c : ContactorIx), definedIn w c = true ↔
      ∃ j, j < (w 0).toNat ∧ j < 24 ∧ (w (1 + 3 * j)).toNat = c.val)
  ∧ (∀ (w : Nat → Word) (s : State),
      let whole := fun k : Slot => s.pst.isValid k = true → ∀ r ∈ recRequirements (s.recordOf k), definedIn w r.1 = true
      (missingReference w s = none ↔ ∀ k, whole k)
      ∧ ∀ k c, missingReference w s = some (k, c) → s.pst.isValid k = true ∧ (∀ j, j < k → whole j)
        ∧ ∃ before p after, recRequirements (s.recordOf k) = before ++ (c, p) :: after ∧ definedIn w c = false
          ∧ ∀ r ∈ before, definedIn w r.1 = true)
  ∧ ∀ (m : Mgmt) (s : State), Serves .finish m s →
    let x := targetParam m
    (s.ldu.claims[x] = none → exec .finish s = .next (answered m .notClaimed [] s))
    ∧ ∀ c, s.ldu.claims[x] = some c →
      (c.holder ≠ m.source → exec .finish s = .next (answered m .heldBy [c.holder.setWidth 16] s))
      ∧ (c.holder = m.source → c.isChecking = true → exec .finish s = .next (answered m .wrongState [] s))
      ∧ (c.holder = m.source → c.isChecking = false →
        let offAir := (s.txe.array = .unset ∨ ∃ r, s.txe.array = .muted r) ∧ ∀ t : TowerIx, s.dsy.atRest t = true
        (x.val = 16 → ¬ offAir → exec .finish s = .next (answered m .wrongState [] s))
        ∧ (∀ k c', x.val = 16 → offAir → missingReference (stagedView s) s = some (k, c') →
            exec .finish s = .next (answered m .referenced [word k.val, word c'.val] s))
        ∧ ((x.val = 16 → offAir ∧ missingReference (stagedView s) s = none) → InUseLaw s → LoadLaw s → StoreLaw s →
          ∃ t n, exec .finish s = .next (answered m .started [word n] t)
            ∧ t = (s.setPst { s.pst with store := t.pst.store, dir := t.pst.dir }).setLdu t.ldu
            ∧ t.ldu.claims[x] = some { c with phase := .checking (m.param 1) 0, committed := n }
            ∧ (∀ y, y ≠ x → t.ldu.claims[y] = s.ldu.claims[y])
            ∧ (∀ k : Slot, x = slotTarget k → t.pst.dir[k].region = s.pst.dir[k].region
                ∧ claimAgrees t.pst.dir[k] t.ldu.claims[x] = true)
            ∧ (∀ k : Slot, x ≠ slotTarget k → t.pst.dir[k] = s.pst.dir[k])
            ∧ ((∀ b, s.ldu.buf = some b → b.owner ≠ x) → n = c.committed ∧ t.ldu.buf = s.ldu.buf
                ∧ t.pst.store = s.pst.store ∧ t.ldu.staging16 = s.ldu.staging16 ∧ t.ldu.staging17 = s.ldu.staging17)
            ∧ ∀ b, s.ldu.buf = some b → b.owner = x → n = max c.committed (b.start + b.words.length) ∧ t.ldu.buf = none
                ∧ (∀ k, regionWord t x k = if b.start ≤ k ∧ k < b.start + b.words.length
                                           then b.words.getD (k - b.start) 0 else regionWord s x k)
                ∧ ∀ y k, y ≠ x → regionWord t y k = regionWord s y k))

/-- R148, R140, R6: UNCLAIM from the holder and the lapse of a LOADING claim abandon the target: its buffered words and
staging area are gone, a slot is EMPTY with the words of store memory as they were, the claim is removed. (For an unclaimed or a
CHECKING target, where no lapse timer runs, a lapse changes nothing: log 2.) -/
def Obligations.UnclaimAndLapseAbandonTheTarget : Prop :=
  (∀ m : Mgmt, precheck .unclaim m = none ↔ m.dest ≠ 0 ∧ m.params.length = 1 ∧ m.num 0 ≤ 17)
  ∧ (∀ (m : Mgmt) (s : State), Serves .unclaim m s →
    let x := targetParam m
    (s.ldu.claims[x] = none → exec .unclaim s = .next (answered m .notClaimed [] s))
    ∧ ∀ c, s.ldu.claims[x] = some c →
      (c.holder ≠ m.source → exec .unclaim s = .next (answered m .heldBy [c.holder.setWidth 16] s))
      ∧ (c.holder = m.source → exec .unclaim s = .next (answered m .done [word c.committed] (abandon x s))))
  ∧ (∀ (x : Target) (s : State), Counting s →
    (s.ldu.claims[x] = none → exec (.claimLapse x) s = .next s)
    ∧ ∀ c, s.ldu.claims[x] = some c →
      (c.isChecking = true → exec (.claimLapse x) s = .next s)
      ∧ (c.isChecking = false → exec (.claimLapse x) s = .next ((abandon x s).raise .claimLapsed (subjectOf x.val)
          [c.holder.setWidth 16, word c.committed])))
  ∧ (∀ (x : Target) (s : State), ∃ t, abandon x s = t ∧ t = (s.setPst { s.pst with dir := t.pst.dir }).setLdu t.ldu
    ∧ t.ldu.claims[x] = none ∧ (∀ y, y ≠ x → t.ldu.claims[y] = s.ldu.claims[y])
    ∧ t.ldu.buf = (if (s.ldu.buf.map (·.owner)) = some x then none else s.ldu.buf)
    ∧ t.ldu.staging16 = (if x.val = 16 then [] else s.ldu.staging16)
    ∧ t.ldu.staging17 = (if x.val = 17 then [] else s.ldu.staging17)
    ∧ (∀ k : Slot, x = slotTarget k → t.pst.dir[k] = .empty)
    ∧ ∀ k : Slot, x ≠ slotTarget k → t.pst.dir[k] = s.pst.dir[k])

/-- R149, R7, R82, R21, R39, R126: READ answers with the words of the target's live content, zero at and beyond its length,
DONE or RANGE, and changes nothing else. The live tables show their entries in ascending order, three words each as 11.4 lays
them out, and a history record its 12 words as 11.3 does. -/
def Obligations.ReadAnswersFromLiveContent : Prop :=
  (∀ (m : Mgmt) (s : State), Serves .read m s →
    let off := m.num 1
    let n := m.num 2
    let from_ := fun (len : Nat) (w : Nat → Word) => exec .read s = .next (answered m
      (if off + n ≤ len then .done else .range)
      ((List.range n).map fun i => if off + i < len then w (off + i) else 0) s)
    (∀ k : Slot, m.num 0 = k.val →
      (s.pst.dir[k] = .empty → exec .read s = .next (answered m .wrongState [] s))
      ∧ ∀ b l, s.pst.dir[k].region = some (b, l) → from_ l fun i => s.pst.store.read (b + i))
    ∧ (m.num 0 = 16 → from_ s.ctu.tableWords.length fun i => s.ctu.tableWords.getD i 0)
    ∧ (m.num 0 = 17 → from_ s.scu.tableWords.length fun i => s.scu.tableWords.getD i 0)
    ∧ (m.num 0 = 18 → from_ (12 * s.txe.history.length) fun i =>
        ((s.txe.history[i / 12]?).map fun h => h.words.getD (i % 12) 0).getD 0)
    ∧ (m.num 0 = 19 → from_ 256 fun i =>
        let x := s.pst.trim (Fin.ofNat 16 (i / 16)) (Fin.ofNat 8 (i / 2))
        if i % 2 = 0 then signedWord x.amp else signedWord x.phase))
  ∧ (∀ u : Ctu, u.tableWords.length = 1 + 3 * ((List.finRange 24).filter fun c => u.units[c].entry.isSome).length
      ∧ u.tableWords.getD 0 0 = word ((List.finRange 24).filter fun c => u.units[c].entry.isSome).length
      ∧ ∀ j c e, ((List.finRange 24).filter fun c => u.units[c].entry.isSome)[j]? = some c → u.units[c].entry = some e →
          u.tableWords.getD (1 + 3 * j) 0 = word c.val
          ∧ (∀ t : TowerIx, e.assoc = .tower t → u.tableWords.getD (2 + 3 * j) 0 = word t.val)
          ∧ (e.assoc = .common → u.tableWords.getD (2 + 3 * j) 0 = 255)
          ∧ u.tableWords.getD (3 + 3 * j) 0 = word e.limit)
  ∧ (∀ u : Scu, u.tableWords.length = 1 + 3 * ((List.finRange 48).filter fun i => u.table[i].isSome).length
      ∧ u.tableWords.getD 0 0 = word ((List.finRange 48).filter fun i => u.table[i].isSome).length
      ∧ ∀ j i e, ((List.finRange 48).filter fun i => u.table[i].isSome)[j]? = some i → u.table[i] = some e →
          let w1 := u.tableWords.getD (1 + 3 * j) 0
          field w1 0 8 = i.val ∧ (field w1 8 2 = if e.enabled then 1 else 0) ∧ field w1 10 2 = 0
          ∧ (e.mode = .default → field w1 12 4 = 0) ∧ (e.mode = .fullMute → field w1 12 4 = 1)
          ∧ (e.mode = .blend → field w1 12 4 = 2)
          ∧ u.tableWords.getD (2 + 3 * j) 0 = e.months.setWidth 16
          ∧ u.tableWords.getD (3 + 3 * j) 0 = word (e.minute + 4096 * e.target.val))
  ∧ (∀ h : HistRecord, h.words.length = 12 ∧ let w := fun k => h.words.getD k 0
      w 0 = h.seq
      ∧ (h.cause = .command → field (w 1) 0 3 = 1) ∧ (h.cause = .schedule → field (w 1) 0 3 = 2)
      ∧ (h.cause = .fallback → field (w 1) 0 3 = 3) ∧ (h.cause = .resume → field (w 1) 0 3 = 4)
      ∧ (h.cause = .retreat → field (w 1) 0 3 = 5)
      ∧ ((w 1).getLsbD 4 = true ↔ h.mode = .blend) ∧ (w 1).getLsbD 5 = h.joint
      ∧ (h.outcome = .opened → field (w 1) 8 2 = 0) ∧ (h.outcome = .completed → field (w 1) 8 2 = 1)
      ∧ (h.outcome = .muted → field (w 1) 8 2 = 2) ∧ (h.outcome = .abandoned → field (w 1) 8 2 = 3)
      ∧ field (w 2) 0 8 = (h.source.map (·.val)).getD 255 ∧ field (w 2) 8 8 = h.target.val
      ∧ joinWords (w 3) (w 4) = h.label ∧ joinWords (w 5) (w 6) = h.start ∧ joinWords (w 7) (w 8) = h.endFrame.getD 0
      ∧ (h.halts ≤ 255 → field (w 9) 0 8 = h.halts ∧ field (w 9) 8 7 = 0 ∧ (w 9).getLsbD 15 = h.endFrame.isSome)
      ∧ w 10 = 0 ∧ w 11 = 0)

/-- R146, R147, R6, R140: the completion of a running check, whenever it comes (log 19). With the check value, the length and
the size right, every item passed and for target 16 the replacement allowed (R52), the content becomes live and the target
unclaimed (the items of a target are those that O45 judges: of a slot the pattern items with the live contactors, of target 16
the Contactor Table's, of target 17 the Schedule Table's); otherwise the target is LOADING again from its committed offset.
CHECK_DONE is raised last. The size found (R10, R51, R127). R53: the staged Contactor Table replaces the live one, positions
kept, states derived from the readings, CONTACTOR_DISAGREE for each in DISAGREE. R128: the staged Schedule Table replaces the
live one with no last-fired dates, and a deferred or held-due entry is discarded. (The model's: the size word of a failed
length, logs 13, 15 and 32; no running check, nothing changes, log 2; the order of the CONTACTOR_DISAGREE notices, log 33, and
their position codes, log 12; the target slot MISSED, TABLE names, log 37.) -/
def Obligations.CheckCompletionMakesContentLive : Prop :=
  (∀ (w : Nat → Word) (s : State),
    let offAir := (s.txe.array = .unset ∨ ∃ r, s.txe.array = .muted r) ∧ ∀ t : TowerIx, s.dsy.atRest t = true
    (replacement w s = .wrongState ↔ ¬ offAir)
    ∧ (replacement w s = .allowed ↔ offAir ∧ missingReference w s = none)
    ∧ ∀ k c, replacement w s = .referenced k c ↔ offAir ∧ missingReference w s = some (k, c))
  ∧ (∀ (x : Target) (n : Nat) (w : Nat → Word),
      let f := 16 + 7 * ((List.finRange 8).filter fun t => (w 3).getLsbD t.val).length
      (16 ≤ x.val → contentSize x n w = some (1 + 3 * (w 0).toNat))
      ∧ (x.val < 16 → n ≤ f → contentSize x n w = none)
      ∧ (x.val < 16 → f < n → contentSize x n w = some (f + 1 + (w f).toNat)))
  ∧ (sizeWord none = 0 ∧ ∀ n, n < 65536 → sizeWord (some n) = word n)
  ∧ (∀ (x : Target) (w : Nat → Word) (s : State), (∀ k : Slot, x = slotTarget k → targetItems s x w = patternItems k s.ctu w)
      ∧ (x.val = 16 → targetItems s x w = contactorTableItems w) ∧ (x.val = 17 → targetItems s x w = scheduleTableItems w))
  ∧ (∀ (x : Target) (c : Option Claim) (s : State), s.setClaim x c
      = s.setLdu { s.ldu with claims := setAt s.ldu.claims x c })
  ∧ (∀ (w : Nat → Word) (s : State), let t := replaceContactors w s
    let n := min (w 0).toNat 24
    t = (s.setCtu { s.ctu with units := t.ctu.units }).setCmu t.cmu
    ∧ (∀ c : ContactorIx, t.ctu.units[c] = { s.ctu.units[c] with entry := t.ctu.units[c].entry }
      ∧ ((∀ j < n, (w (1 + 3 * j)).toNat ≠ c.val) → t.ctu.units[c].entry = none)
      ∧ ∀ j < n, (w (1 + 3 * j)).toNat = c.val → (∀ i < j, (w (1 + 3 * i)).toNat ≠ c.val) →
          ∃ e, t.ctu.units[c].entry = some e
            ∧ (∀ u : TowerIx, (w (2 + 3 * j)).toNat = u.val → e.assoc = .tower u)
            ∧ (8 ≤ (w (2 + 3 * j)).toNat → e.assoc = .common) ∧ e.limit = (w (3 + 3 * j)).toNat
            ∧ e.commanded = (s.ctu.units[c].entry.map (·.commanded)).getD .opened
            ∧ (s.ctu.units[c].reading.agrees e.commanded = true → e.state = standing e.commanded)
            ∧ (s.ctu.units[c].reading.agrees e.commanded = false → e.state = .disagree))
    ∧ t.cmu = (List.finRange 24).foldl (fun u c => match t.ctu.units[c].entry with
        | some e => if e.state = .disagree then u.enter (.notice .contactorDisagree s.stamp (subjectOf c.val) none
              [word e.commanded.code, word s.ctu.units[c].reading.code,
               word ((s.ctu.units[c].entry.map fun x => x.state.code).getD 0)])
            else u
        | none => u) s.cmu)
  ∧ (∀ (w : Nat → Word) (s : State), let t := replaceSchedule w s
    let n := min (w 0).toNat 48
    t = (s.setScu { s.scu with deferred := none, held := none, table := t.scu.table }).setCmu t.cmu
    ∧ (∀ i : EntryIx, ((∀ j < n, field (w (1 + 3 * j)) 0 8 ≠ i.val) → t.scu.table[i] = none)
      ∧ ∀ j < n, field (w (1 + 3 * j)) 0 8 = i.val → (∀ k < j, field (w (1 + 3 * k)) 0 8 ≠ i.val) →
          ∃ e, t.scu.table[i] = some e ∧ (e.enabled = true ↔ field (w (1 + 3 * j)) 8 2 = 1)
            ∧ e.months = (w (2 + 3 * j)).setWidth 12 ∧ e.minute = field (w (3 + 3 * j)) 0 12
            ∧ e.target.val = field (w (3 + 3 * j)) 12 4 ∧ e.lastFired = none
            ∧ (field (w (1 + 3 * j)) 12 2 = 0 → e.mode = .default) ∧ (field (w (1 + 3 * j)) 12 2 = 1 → e.mode = .fullMute)
            ∧ (field (w (1 + 3 * j)) 12 2 = 2 → e.mode = .blend))
    ∧ t.cmu = (s.scu.deferred.toList ++ s.scu.held.toList).foldl (fun u o => u.enter (.notice .scheduleDue s.stamp
        (subjectOf o.entry.val) none [word (6 + 256 * 9), word (slotByte (s.scu.table[o.entry].map (·.target))),
          word o.date.days, 0])) s.cmu)
  ∧ ∀ (x : Target) (s : State), s.running = true →
    (s.ldu.claims[x] = none → exec (.checkCompletion x) s = .next s)
    ∧ ∀ c, s.ldu.claims[x] = some c →
      (∀ n, c.phase = .loading n → exec (.checkCompletion x) s = .next s)
      ∧ ∀ e n, c.phase = .checking e n →
        let w := regionWord s x
        let value := checkWord ((List.range c.length).map w)
        let complete := c.committed = c.length ∧ contentSize x c.committed w = some c.length
        let bad := firstFailure (targetItems s x w)
        let replace := replacement w s
        let again := fun (d : List Word) => ∃ t, exec (.checkCompletion x) s
            = .next (t.raise .checkDone (subjectOf x.val) d)
          ∧ t = (s.setPst { s.pst with dir := t.pst.dir }).setLdu { s.ldu with claims := t.ldu.claims }
          ∧ t.ldu.claims[x] = some { c with phase := .loading 0, running := c.committed }
          ∧ (∀ y, y ≠ x → t.ldu.claims[y] = s.ldu.claims[y])
          ∧ (∀ (k : Slot) b l h, x = slotTarget k → s.pst.dir[k] = .checking b l h → t.pst.dir[k] = .loading b l h)
          ∧ ∀ k : Slot, x ≠ slotTarget k → t.pst.dir[k] = s.pst.dir[k]
        (value ≠ e → again [2, value, e, 0])
        ∧ (value = e →
          (¬ complete → again [259, value, word c.committed, sizeWord (contentSize x c.committed w)])
          ∧ (complete →
            (∀ i, bad = some i → again [515, value, word i.offset, word i.number])
            ∧ (bad = none →
              (x.val = 16 → replace = .wrongState → again [4, value, word s.txe.array.code, 0])
              ∧ (∀ k c', x.val = 16 → replace = .referenced k c' → again [5, value, word k.val, word c'.val])
              ∧ (x.val = 16 → replace = .allowed → exec (.checkCompletion x) s = .next
                  ((((replaceContactors w s).setLdu { s.ldu with staging16 := [] }).setClaim x none).raise .checkDone
                    (subjectOf 16) [1, value, 0, 0]))
              ∧ (x.val = 17 → exec (.checkCompletion x) s = .next
                  ((((replaceSchedule w s).setLdu { s.ldu with staging17 := [] }).setClaim x none).raise .checkDone
                    (subjectOf 17) [1, value, 0, 0]))
              ∧ ∀ (k : Slot) b l h, x = slotTarget k → s.pst.dir[k] = .checking b l h →
                  exec (.checkCompletion x) s = .next (((s.setPst { s.pst with
                    dir := setAt s.pst.dir k (.valid b l value (joinWords (w 1) (w 2))) }).setClaim x none).raise .checkDone
                    (subjectOf k.val) [1, value, 0, 0]))))

/-- R17, R18, R51, R127: a pattern record, a Contactor Table and a Schedule Table are judged by the rows of their tables in
order (Safety.lean writes the rows out), each item passing exactly when its row's condition holds and reporting its row's
offset when it fails, and the first that fails is the one found; a record passes every item of R17 exactly when it meets each
of its conditions. R11 to R15, 11.4: the fields of a record in its words, a label's characters with the first in the high
byte. The word that item 8 of R127 reports in its entry is a free value (log 13). -/
def Obligations.PatternItemsJudgeTheRecord : Prop :=
  (∀ (items : List Item) (i : Item), (firstFailure items = some i ↔
      ∃ before after, items = before ++ i :: after ∧ i.pass = false ∧ ∀ x ∈ before, x.pass = true))
  ∧ (∀ (k : Slot) (live : Ctu) (w : Nat → Word),
      List.Forall₂ ItemRow.judgedBy (patternRows k live w) (patternItems k live w))
  ∧ (∀ w : Nat → Word, List.Forall₂ ItemRow.judgedBy (contactorRows w) (contactorTableItems w))
  ∧ (∀ w : Nat → Word, List.Forall₂ ItemRow.judgedBy (scheduleRows w) (scheduleTableItems w))
  ∧ (∀ (l : Label) (i : Nat), i < 4 → (labelChar l i).toNat = l.toNat / 256 ^ (3 - i) % 256)
  ∧ (∀ w : Nat → Word, let n := fun j => (w j).toNat
      recLabel w = joinWords (w 1) (w 2) ∧ (∀ t : TowerIx, has (recTowers w) t = (w 3).getLsbD t.val)
      ∧ (∀ t : TowerIx, recReference w = some t ↔ n 4 = t.val) ∧ recScale w = n 5
      ∧ recDown w = (if n 6 = 0 then 4096 else n 6) ∧ recUp w = (if n 7 = 0 then 4096 else n 7)
      ∧ recSettle w = n 8 ∧ recHoldOff w = n 9
      ∧ (recMode w = .blend ↔ field (w 10) 0 2 = 1) ∧ (recMode w = .fullMute ↔ field (w 10) 0 2 ≠ 1)
      ∧ (recBlend w = true ↔ field (w 10) 4 2 = 1) ∧ (recTrimOn w = true ↔ field (w 10) 8 2 = 1)
      ∧ recGrace w = field (w 11) 0 8 ∧ recRatioBand w = field (w 11) 8 8 ∧ (∀ k : Slot, recFallback w = some k ↔ n 12 = k.val)
      ∧ recAmpBound w = n 13 ∧ recPhaseBound w = n 14 ∧ recPhaseBand w = n 15
      ∧ (∀ t : TowerIx, let b := 16 + 7 * ((List.finRange 8).filter fun u => u < t ∧ (w 3).getLsbD u.val = true).length
          (∀ j, recEntry w t j = w (b + j))
          ∧ recAmp w t = n (b + 1) ∧ recPhase w t = n (b + 2) ∧ recRatio w t = n (b + 3)
          ∧ recLicPhase w t = (w (b + 4)).toInt ∧ recRatioTol w t = n (b + 5) ∧ recPhaseTol w t = n (b + 6))
      ∧ (let f := 16 + 7 * ((List.finRange 8).filter fun t => (w 3).getLsbD t.val).length
        n f ≤ 24 → (∀ j, j < n f → field (w (f + 1 + j)) 0 8 < 24) →
          (recRequirements w).length = n f
          ∧ ∀ j c p, (recRequirements w)[j]? = some (c, p) →
              c.val = field (w (f + 1 + j)) 0 8 ∧ (p = .closed ↔ field (w (f + 1 + j)) 8 8 = 1)))
  ∧ ∀ (k : Slot) (live : Ctu) (w : Nat → Word),
    firstFailure (patternItems k live w) = none ↔
      (w 0).toNat = 41217
      ∧ (∀ i, i < 4 → 32 ≤ (labelChar (joinWords (w 1) (w 2)) i).toNat
            ∧ (labelChar (joinWords (w 1) (w 2)) i).toNat ≤ 126)
      ∧ 1 ≤ (w 3).toNat ∧ (w 3).toNat ≤ 255
      ∧ ((w 4).toNat = 255 ∨ ((w 4).toNat < 8 ∧ (w 3).getLsbD (w 4).toNat = true))
      ∧ (w 5).toNat ≤ 32768 ∧ (w 6).toNat ≤ 4095 ∧ (w 7).toNat ≤ 4095 ∧ (w 8).toNat ≤ 2000 ∧ (w 9).toNat ≤ 10000
      ∧ (field (w 10) 0 2 = 0 ∨ field (w 10) 0 2 = 1 ∧ field (w 10) 4 2 = 1)
      ∧ field (w 10) 4 2 ≤ 1 ∧ field (w 10) 8 2 ≤ 1
      ∧ 1 ≤ field (w 11) 0 8 ∧ field (w 11) 8 8 ≤ 100
      ∧ ((w 12).toNat = 65535 ∨ (w 12).toNat ≤ 15 ∧ (w 12).toNat ≠ k.val)
      ∧ (w 13).toNat ≤ 2048 ∧ (w 14).toNat ≤ 500 ∧ (w 15).toNat ≤ 1000
      ∧ (∀ t : TowerIx, (w 3).getLsbD t.val = true →
          let e := recEntry w t
          let ref := (w 4).toNat = t.val
          (e 0).toNat = t.val ∧ (e 2).toNat ≤ 35999 ∧ 1 ≤ (e 3).toNat ∧ (ref → (e 3).toNat = 16384)
          ∧ -18000 ≤ (e 4).toInt ∧ (e 4).toInt ≤ 18000 ∧ (ref → e 4 = 0)
          ∧ 1 ≤ (e 5).toNat ∧ (e 5).toNat ≤ 100 ∧ field (w 11) 8 8 < (e 5).toNat
          ∧ 10 ≤ (e 6).toNat ∧ (e 6).toNat ≤ 1000 ∧ (w 15).toNat < (e 6).toNat)
      ∧ (let first := 16 + 7 * ((List.finRange 8).filter fun t => (w 3).getLsbD t.val).length
         let number := fun (j : Nat) => field (w (first + 1 + j)) 0 8
         (w first).toNat ≤ 24
         ∧ ∀ j, j < (w first).toNat →
             (∃ c : ContactorIx, c.val = number j ∧ live.units[c].entry ≠ none)
             ∧ field (w (first + 1 + j)) 8 8 ≤ 1
             ∧ ∀ i, i < j → number i ≠ number j)

/-! ## Drive: orders, ramps and samples -/

/-- R24 to R28, R33: what an order fixes, how a tower advances by one frame, what its samples are and what the words of its
drive frame (11.5). The record of a slot is the words of its region, zero beyond it (R1, R7); a word of a memory that nothing
wrote is zero. A tower at rest has amplitude zero and no ramp in progress (at once for a cancelled ramp: log 39). Rounding is
to the nearest whole number, a half away from zero; an ARC phase is rounded as one total (log 20). -/
def Obligations.RampsAdvanceAndSamplesAreScaled : Prop :=
  (∀ n d : Nat, 0 < d → 2 * d * roundDiv n d ≤ 2 * n + d ∧ 2 * n + d < 2 * d * (roundDiv n d + 1))
  ∧ (∀ n d : Nat, roundDivInt n d = roundDiv n d ∧ roundDivInt (-(n : Int)) d = -(roundDiv n d : Int))
  ∧ (∀ i : Int, -18000 < fold i ∧ fold i ≤ 18000 ∧ (fold i - i) % 36000 = 0)
  ∧ (∀ (d : Dsy) (t : TowerIx), d.atRest t = true ↔ d.towers[t].amp = 0 ∧ ∀ r, d.towers[t].order ≠ .ramp r)
  ∧ (∀ (d : Dsy) (len : Nat) (t : TowerIx), d.orderZero len t
      = { d with towers := setAt d.towers t { d.towers[t] with
            order := if d.towers[t].amp = 0 ∨ d.localPace = true then .rest else .ramp (zeroRamp d.towers[t] len) } })
  ∧ (∀ (x : Tower) (len : Nat), zeroRamp x len = { startAmp := x.amp, startPhase := x.phase, target := .zero, endAmp := 0,
                                                   endPhase := x.phase, length := len, step := 0, manner := .hold })
  ∧ (∀ (d : Dsy) (len : Nat) (skip : TowerSet), d.rampDownAll len skip = { d with towers := (d.rampDownAll len skip).towers }
      ∧ ∀ t : TowerIx, (d.rampDownAll len skip).towers[t]
          = if has skip t = true ∨ d.towers[t].order = .rest then d.towers[t] else (d.orderZero len t).towers[t])
  ∧ (∀ (d : Dsy) (p : Pst) (k : Slot) (len : Nat) (t : TowerIx),
      (d.ilkClosed = false ∨ d.localPace = true → d.orderPattern p k len t = d)
      ∧ (d.ilkClosed = true → d.localPace = false → ∃ y, d.orderPattern p k len t
          = { d with towers := setAt d.towers t { d.towers[t] with order := .ramp y } }
        ∧ y = patternRamp p k t d.towers[t] len
        ∧ y.startAmp = d.towers[t].amp ∧ y.startPhase = d.towers[t].phase ∧ y.target = .pattern k
        ∧ (y.endAmp, y.endPhase) = patternValues p k t d.towers[t].phase ∧ y.length = len ∧ y.step = 0
        ∧ (d.towers[t].amp = 0 → y.manner = .jump) ∧ (d.towers[t].amp ≠ 0 → y.manner = .arc)))
  ∧ (∀ (d : Dsy) (x : TowerSet), d.forceZero x = { d with towers := (d.forceZero x).towers }
      ∧ ∀ t : TowerIx, (d.forceZero x).towers[t]
          = if has x t then { d.towers[t] with order := .rest } else d.towers[t])
  ∧ (∀ (p : Pst) (k : Slot) (t : TowerIx) (now : Nat), let w := p.slotWord k
      (has (recTowers w) t = false → patternValues p k t now = (0, now))
      ∧ (has (recTowers w) t = true → ∀ a ph : Nat, patternValues p k t now = (a, ph) →
          a = min 65536 (roundDiv (((recAmp w t : Int) + (p.trim k t).amp).toNat * recScale w) 32768)
          ∧ (ph : Int) = ((recPhase w t : Int) + (p.trim k t).phase) % 36000))
  ∧ (∀ (p : Pst) (t : TowerIx) (x : Tower),
      (x.order = .rest → x.advance p t = ({ x with amp := 0 }, none))
      ∧ (∀ k, x.order = .follow k → x.advance p t
          = ({ x with amp := (patternValues p k t x.phase).1, phase := (patternValues p k t x.phase).2 }, none))
      ∧ ∀ r, x.order = .ramp r →
          (r.step + 1 < r.length → ∃ y, x.advance p t = (y, none)
            ∧ y = { x with amp := y.amp, phase := y.phase, order := .ramp { r with step := r.step + 1 } }
            ∧ y.amp = roundDiv (r.startAmp * (r.length - (r.step + 1)) + r.endAmp * (r.step + 1)) r.length
            ∧ (r.manner = .hold → y.phase = x.phase) ∧ (r.manner = .jump → y.phase = r.endPhase)
            ∧ (r.manner = .arc → (y.phase : Int) = roundDivInt ((r.startPhase : Int) * r.length
                + fold ((r.endPhase : Int) - r.startPhase) * (r.step + 1)) r.length % 36000))
          ∧ (r.length ≤ r.step + 1 → ∃ y, x.advance p t = (y, some r.target)
            ∧ y = { x with amp := r.endAmp, phase := y.phase, order := y.order }
            ∧ (r.manner = .hold → y.phase = x.phase) ∧ (r.manner ≠ .hold → y.phase = r.endPhase)
            ∧ (r.target = .zero → y.order = .rest) ∧ ∀ k, r.target = .pattern k → y.order = .follow k))
  ∧ (∀ (s : State) (k : Slot), s.pst.slotWord k = s.recordOf k ∧ (s.pst.dir[k].region = none → ∀ i, s.recordOf k i = 0)
      ∧ ∀ b l, s.pst.dir[k].region = some (b, l) → ∀ i, s.recordOf k i = if i < l then s.pst.store.read (b + i) else 0)
  ∧ (∀ (a b : Nat) (v : Word) (x : Mem), Mem.read [] a = 0 ∧ Mem.read ((b, v) :: x) a = if b = a then v else x.read a)
  ∧ (∀ {α : Type} {n : Nat} (v : Vector α n) (i j : Fin n) (x : α), (setAt v i x)[j] = if j = i then x else v[j])
  ∧ (∀ (amp : Nat) (e : Word), (driveSample amp e).toNat = min 65535 (roundDiv (e.toNat * amp) 32768)
      ∧ rawSample amp e = roundDiv (e.toNat * amp) 32768
      ∧ driveSample 0 e = 0 ∧ driveSample 32768 e = e)
  ∧ (∀ f : DriveFrame, f.phase < 65536 → f.words.length = 5 + f.samples.length ∧ f.words.drop 5 = f.samples
      ∧ (let w := fun k => f.words.getD k 0
        joinWords (w 0) (w 1) = f.number ∧ w 2 = f.reference ∧ (w 3).toNat = f.phase
        ∧ (f.state = .idle → field (w 4) 0 2 = 0) ∧ (f.state = .ramping → field (w 4) 0 2 = 1)
        ∧ (f.state = .driven → field (w 4) 0 2 = 2) ∧ field (w 4) 2 6 = 0 ∧ (w 4).getLsbD 8 = f.saturated
        ∧ field (w 4) 9 7 = 0))
  ∧ ∀ (x : Tower) (n : FrameNum) (ref : Word) (env : List Word), let f := x.frame n ref env
      f.number = n ∧ f.reference = ref ∧ f.phase = x.phase ∧ f.samples = env.map (driveSample x.amp)
      ∧ (f.saturated = true ↔ ∃ e ∈ env, 65535 < roundDiv (e.toNat * x.amp) 32768)
      ∧ (f.state = .ramping ↔ ∃ r, x.order = .ramp r)
      ∧ (f.state = .idle ↔ (∀ r, x.order ≠ .ramp r) ∧ x.amp = 0)

/-! ## Transitions -/

/-- R64 to R68, R81, R108: a frame event with an Armed Request standing, and one with none standing and no GO taken, which
sets TXE's frame number and leaves everything else as it was (GO taken: O25). A renumbering and a passed frame withdraw it;
its own frame starts the transition, whose next state is given whole: a new OPEN record, a context with the resolved mode and
lengths and the sets of R66, the guard NONE, RAMP_DOWN, TX_STARTED; blend towers are left alone and every other driven tower
is ordered down. What the entry to RAMP_DOWN does, what a start tells MON (R115), and how a record is closed. (That TX_STARTED
follows what RAMP_DOWN leads to is the literal order of R65, log 10.) -/
def Obligations.FrameEventsStartTheArmedTransition : Prop :=
  (∀ (c : TxContext) (s : State),
    let u := (s.setTxe { s.txe with array := .rampDown c }).setDsy (s.dsy.rampDownAll c.downLen c.blend)
    ((∀ t : TowerIx, has c.blend t = true ∨ u.dsy.atRest t = true) → enterRampDown c s = enterSwitching c u)
    ∧ ((∃ t : TowerIx, has c.blend t = false ∧ u.dsy.atRest t = false) → enterRampDown c s = u))
  ∧ (∀ (x : Cause) (s : State), tellStarted x s = s.setMon { s.mon.leaveActive with
      spent := if x = .command ∨ x = .schedule then false else s.mon.spent })
  ∧ (∀ (o : HistOutcome) (f : FrameNum) (h : HistRecord) (hs : List HistRecord), closeNewest o f [] = []
      ∧ closeNewest o f (h :: hs)
        = (if h.outcome = .opened then { h with outcome := o, endFrame := some f } else h) :: hs)
  ∧ [Cause.command, .schedule, .fallback, .resume, .retreat].map Cause.code = [1, 2, 3, 4, 5]
  ∧ [Mode.fullMute, .blend].map Mode.code = [1, 2]
  ∧ (∀ (n : FrameNum) (b : Bool) (s : State), s.txe.armed = none → (∀ c f, s.txe.array ≠ .readyUp c (.taken f)) →
      frameEvent n b s = s.setTxe { s.txe with frame := some n })
  ∧ ∀ (a : Armed) (n : FrameNum) (b : Bool) (s : State), s.txe.armed = some a →
    let u := s.setTxe { s.txe with frame := some n }
    let withdrawn := fun (reason : Word) => (u.setTxe { u.txe with armed := none }).raise .armedWithdrawn
      (subjectOf a.target.val) ([reason] ++ twoWords a.frame ++ [word a.cause.code])
    let t := frameEvent n b s
    (b = true → t = withdrawn 2)
    ∧ (b = false → n ≠ a.frame → 2 ^ 31 ≤ (a.frame - n).toNat → t = withdrawn 3)
    ∧ (b = false → n ≠ a.frame → (a.frame - n).toNat < 2 ^ 31 → t = u)
    ∧ (b = false → n = a.frame →
      let source := s.txe.array.activeSlot
      let named := a.mode = .blend ∨ (a.mode = .default ∧ recMode (s.recordOf a.target) = .blend)
      let mode := if named ∧ (∃ p, source = some p ∧ recBlend (s.recordOf p) = true)
                      ∧ recBlend (s.recordOf a.target) = true then Mode.blend else .fullMute
      let down := a.down.getD ((source.map fun p => recDown (s.recordOf p)).getD 256)
      let up := a.up.getD (recUp (s.recordOf a.target))
      let switched := fun k : TowerIx => ∃ r ∈ recRequirements (s.recordOf a.target), ∃ e,
        s.ctu.units[r.1].entry = some e ∧ e.state.standsAt r.2 = false ∧ has e.assoc.towers k = true
      let blends := fun k : TowerIx => mode = .blend ∧ ¬ switched k
        ∧ has (recTowers (s.recordOf a.target)) k = true
        ∧ ∃ p, source = some p ∧ has (recTowers (s.recordOf p)) k = true
      let driven := fun k : TowerIx => ¬ blends k ∧ s.dsy.towers[k].order ≠ .rest ∧ s.dsy.towers[k].amp ≠ 0
        ∧ s.dsy.localPace = false
      t.txe.armed = none ∧ t.txe.frame = some n ∧ t.txe.seq = s.txe.seq + 1 ∧ t.rif = s.rif ∧ t.pst = s.pst
      ∧ t.ldu = s.ldu
      ∧ (∃ r, t.txe.history = r :: (if s.txe.array.haltContext.isSome
                then closeNewest .abandoned n s.txe.history else s.txe.history).take 7
          ∧ r.seq = s.txe.seq ∧ r.cause = a.cause ∧ r.source = source ∧ r.target = a.target
          ∧ r.label = s.pst.label a.target ∧ r.mode = mode ∧ r.joint = a.joint.isSome ∧ r.start = n
          ∧ r.outcome = .opened ∧ r.endFrame = none)
      ∧ (∃ r c, r.seq = s.txe.seq ∧ r.cause = a.cause ∧ r.source = source ∧ r.target = a.target
          ∧ r.label = s.pst.label a.target ∧ r.mode = mode ∧ r.joint = a.joint.isSome ∧ r.start = n
          ∧ r.outcome = .opened ∧ r.endFrame = none ∧ r.halts = 0
          ∧ c.cause = a.cause ∧ c.source = source ∧ c.target = a.target ∧ c.mode = mode ∧ c.joint = a.joint
          ∧ c.downLen = down ∧ c.upLen = up ∧ (∀ k, has c.blend k = true ↔ blends k) ∧ SetsOfStart c s
          ∧ t = tellStarted a.cause ((enterRampDown c ((s.setTxe { s.txe with
                  frame := some n
                  armed := none
                  seq := s.txe.seq + 1
                  history := r :: (if s.txe.array.haltContext.isSome
                    then closeNewest .abandoned n s.txe.history else s.txe.history).take 7 }).setCtu
                { s.ctu with guard := none })).raise .txStarted (subjectOf a.target.val)
              [s.txe.seq, word a.cause.code, word (slotByte source), word mode.code]))
      ∧ ((∃ c, t.txe.array.context = some c ∧ c.cause = a.cause ∧ c.source = source ∧ c.target = a.target
            ∧ c.mode = mode ∧ c.joint = a.joint ∧ c.downLen = down ∧ c.upLen = up
            ∧ ∀ k, has c.blend k = true ↔ blends k)
        ∨ ∃ h, t.txe.array = .halted h ∧ h.cause = a.cause ∧ h.source = source ∧ h.target = a.target
            ∧ h.mode = mode ∧ h.joint = a.joint ∧ h.upLen = up)
      ∧ ((∃ k, driven k) → (∃ c, t.txe.array = .rampDown c) ∧ t.ctu = { s.ctu with guard := none }
          ∧ (∀ k, driven k → t.dsy.towers[k] = { s.dsy.towers[k] with order := .ramp (zeroRamp s.dsy.towers[k] down) })
          ∧ ∀ k, blends k → t.dsy.towers[k] = s.dsy.towers[k]))

/-- R73, R74, R108: RAMP_UP start with its cabinet test and its orders; the ramp-ended reports that complete the transition,
and that change nothing outside RAMP_UP (R75); ACTIVE with the record COMPLETED, the clip flags clear, TX_COMPLETED, and MON
set for the pattern. R132: SCU then offers a deferred entry, which it removes, for the next frame, and settles it by the
answer (R129 to R131). (That the request is taken in the step of the completion itself is the model's choice, log 41.) -/
def Obligations.RampUpStartsAndCompletes : Prop :=
  (∀ (c : TxContext) (s : State), let x := recTowers (s.recordOf c.target)
    (∀ t : TowerIx, has x t = true → s.dsy.towers[t].ready = false →
      (∀ u : TowerIx, u < t → has x u = true → s.dsy.towers[u].ready = true) →
      startRampUp c s = halt .cabinet (.tower t) (s.setTxe { s.txe with array := .rampUp c 0 })
      ∧ ∃ h, (startRampUp c s).txe.array = .halted h ∧ h.reason = .cabinet ∧ h.subject = .tower t ∧ h.step = .rampUp
        ∧ h.source = c.source ∧ h.target = c.target)
    ∧ ((∀ t : TowerIx, has x t = true → s.dsy.towers[t].ready = true) →
      startRampUp c s = (s.setTxe { s.txe with array := .rampUp c 0 }).setDsy
        { s.dsy with towers := (startRampUp c s).dsy.towers }
      ∧ ∀ t : TowerIx, (startRampUp c s).dsy.towers[t]
          = if has x t = true ∧ s.dsy.ilkClosed = true ∧ s.dsy.localPace = false then
              { s.dsy.towers[t] with order := .ramp (patternRamp s.pst c.target t s.dsy.towers[t] c.upLen) }
            else s.dsy.towers[t]))
  ∧ (∀ (ends : List (TowerIx × RampEnd)) (c : TxContext) (ended : TowerSet) (s : State),
      s.txe.array = .rampUp c ended →
      let x := recTowers (s.recordOf c.target)
      let done := fun t : TowerIx => has ended t = true ∨ (t, RampEnd.pattern c.target) ∈ ends
      ((∃ t, has x t = true ∧ ¬ done t) → ∃ e, takeRampEnds ends s = s.setTxe { s.txe with array := .rampUp c e }
        ∧ ∀ t, has e t = true ↔ done t)
      ∧ ((∀ t, has x t = true → done t) → takeRampEnds ends s = complete c s))
  ∧ (∀ (ends : List (TowerIx × RampEnd)) (s : State), (∀ c e, s.txe.array ≠ .rampUp c e) → takeRampEnds ends s = s)
  ∧ (∀ (c : TxContext) (h : HistRecord) (hs : List HistRecord) (s : State), s.txe.history = h :: hs →
      h.outcome = .opened →
      complete c s = tellActive c.target (((s.setTxe { s.txe with
          array := .active c.target
          history := { h with outcome := .completed, endFrame := some s.txe.now } :: hs }).setDsy
        { s.dsy with towers := s.dsy.towers.map fun x => { x with clipNoticed := false } }).enter
          (.notice .txCompleted s.stamp (subjectOf c.target.val) (some h.label)
            ([h.seq] ++ twoWords h.start ++ [h.label.extractLsb' 16 16]))))
  ∧ ∀ (p : Slot) (s : State), (tellActive p s).mon.active = some p ∧ (tellActive p s).mon.spent = s.mon.spent
      ∧ (tellActive p s).mon.holdOff = (if recHoldOff (s.recordOf p) = 0 then none else some 0)
      ∧ (∀ t : TowerIx, (tellActive p s).mon.towers[t] =
          { status := if has (recTowers (s.recordOf p)) t then .held else .notInPattern, count := 0,
            limitNoticed := false })
      ∧ (s.scu.deferred = none → (tellActive p s).scu = s.scu ∧ (tellActive p s).txe = s.txe
          ∧ (tellActive p s).cmu = s.cmu)
      ∧ ∀ o, s.scu.deferred = some o →
          let u := (s.setMon (tellActive p s).mon).setScu { s.scu with deferred := none }
          (s.scu.table[o.entry] = none → tellActive p s = u)
          ∧ ∀ e v a, s.scu.table[o.entry] = some e → request e.target e.mode none .schedule u = (v, a) →
              tellActive p s = settleDue o a v

/-- R84 to R88, R98: a halt withdraws the Armed Request with ARMED_WITHDRAWN (HALT) (R61), frees the guard, takes drive off as
R86 gives, forms the halt context, counts the halt in the record, which is OPEN, and raises TX_HALTED; TX_AT_REST is raised
once, at the entry if every tower is at rest; the at-rest change that completes MUTING leads to MUTED. R69: the at-rest change
in RAMP_DOWN that leaves every tower outside the blend set at rest enters SWITCHING, and one that does not changes nothing;
R75: in every other state an at-rest change is without effect. R108, R132: at the entry to HALTED or MUTED MON leaves ACTIVE,
and SCU discards a deferred entry with MISSED, DISCARDED. -/
def Obligations.HaltKeepsTheContextAndCountsTheHalt : Prop :=
  [HaltedStep.rampDown, .switching, .settle, .readyUp, .rampUp, .active].map HaltedStep.code = [1, 2, 3, 4, 5, 6]
  ∧ (∀ (c : TxContext) (g : Gate) (e : TowerSet) (n : Nat) (p : Slot) (s : State),
    (s.txe.array = .rampDown c → haltView s = some (viewOf .rampDown c))
    ∧ (s.txe.array = .switching c → haltView s = some (viewOf .switching c))
    ∧ (s.txe.array = .settle c n → haltView s = some (viewOf .settle c))
    ∧ (s.txe.array = .readyUp c g → haltView s = some (viewOf .readyUp c))
    ∧ (s.txe.array = .rampUp c e → haltView s = some (viewOf .rampUp c))
    ∧ (s.txe.array = .active p → ∃ v, haltView s = some v ∧ v.step = .active ∧ v.source = none ∧ v.target = p
        ∧ v.mode = .fullMute ∧ v.joint = none ∧ v.upLen = recUp (s.recordOf p)
        ∧ ∀ r ∈ s.txe.history.head?, v.cause = r.cause))
  ∧ (∀ (x : HaltedStep) (c : TxContext), viewOf x c = { step := x, cause := c.cause, source := c.source, target := c.target,
                                                        mode := c.mode, joint := c.joint, upLen := c.upLen })
  ∧ (∀ (reason : HaltReason) (subject : HaltSubject) (v : HaltView) (s : State), haltView s = some v →
      let t := halt reason subject s
      t.txe.armed = none ∧ t.txe.seq = s.txe.seq ∧ t.txe.frame = s.txe.frame
      ∧ t.ctu = { s.ctu with guard := none } ∧ t.mon = s.mon.leaveActive ∧ t.scu = { s.scu with deferred := none }
      ∧ t.rif = s.rif ∧ t.pst = s.pst ∧ t.ldu = s.ldu
      ∧ (∃ h, t.txe.array = .halted h ∧ h.reason = reason ∧ h.subject = subject ∧ h.step = v.step ∧ h.cause = v.cause
          ∧ h.source = v.source ∧ h.target = v.target ∧ h.mode = v.mode ∧ h.joint = v.joint ∧ h.upLen = v.upLen
          ∧ h.seq = s.txe.newestSeq ∧ (h.restNoticed = true ↔ ∀ k : TowerIx, t.dsy.atRest k = true)
          ∧ t.cmu = s.cmu.enterAll (withdrawnNotice 4 s ++ [haltedNotice h s]
              ++ (if h.restNoticed then [atRestNotice h s] else []) ++ discardedNotice s))
      ∧ (∀ r, s.txe.history.head? = some r → s.txe.newestSeq = r.seq)
      ∧ (∀ r rs, s.txe.history = r :: rs →
          t.txe.history = { r with outcome := .opened, endFrame := none, halts := min 255 (r.halts + 1) } :: rs)
      ∧ (s.cmu.reports.length ≤ 30 → .notice .txHalted s.stamp (subjectOf v.target.val) none
            [word reason.code, word v.step.code, word subject.byte, s.txe.newestSeq] ∈ t.cmu.reports)
      ∧ (reason = .ring ∨ reason = .interlock → t.dsy = s.dsy)
      ∧ (reason ≠ .ring → reason ≠ .interlock → t.dsy = { s.dsy with towers := t.dsy.towers } ∧ ∀ k : TowerIx,
          t.dsy.towers[k] = if s.dsy.towers[k].order = .rest then s.dsy.towers[k]
            else { s.dsy.towers[k] with
              order := if s.dsy.towers[k].amp = 0 ∨ s.dsy.localPace = true then .rest
                       else .ramp (zeroRamp s.dsy.towers[k] 256) }))
  ∧ (∀ (c : TxContext) (s : State), s.txe.array = .rampDown c →
      ((∀ k : TowerIx, has c.blend k = true ∨ s.dsy.atRest k = true) → takeAtRest s = enterSwitching c s)
      ∧ ((∃ k : TowerIx, has c.blend k = false ∧ s.dsy.atRest k = false) → takeAtRest s = s))
  ∧ (∀ (c : TxContext) (n : Nat) (g : Gate) (e : TowerSet) (p : Slot) (r : Option Slot) (s : State),
      s.txe.array ∈ [ArrayState.unset, .active p, .switching c, .settle c n, .readyUp c g, .rampUp c e, .muted r] →
      takeAtRest s = s)
  ∧ (∀ (h : HaltContext) (s : State), s.txe.array = .halted h →
      (h.restNoticed = true ∨ (∃ k : TowerIx, s.dsy.atRest k = false) → takeAtRest s = s)
      ∧ (h.restNoticed = false → (∀ k : TowerIx, s.dsy.atRest k = true) → takeAtRest s
          = (s.setTxe { s.txe with array := .halted { h with restNoticed := true } }).raise .txAtRest
              (subjectOf h.target.val) [h.seq]))
  ∧ (∀ s : State, s.txe.array = .muting →
      ((∃ k : TowerIx, s.dsy.atRest k = false) → takeAtRest s = s)
      ∧ ((∀ k : TowerIx, s.dsy.atRest k = true) → takeAtRest s = tellStopped
          ((s.setTxe { s.txe with array := .muted none }).raise .muted none [1])))
  ∧ (∀ s : State, let u := s.setMon s.mon.leaveActive
      (s.scu.deferred = none → tellStopped s = u)
      ∧ ∀ o, s.scu.deferred = some o → tellStopped s
          = raiseDue o .missed .discarded none (u.setScu { s.scu with deferred := none }))
  ∧ (∀ m : Mon, m.leaveActive = { m with active := none, holdOff := none, towers := m.leaveActive.towers }
      ∧ ∀ t : TowerIx, m.leaveActive.towers[t] = { m.towers[t] with status := .held, count := 0 })

/-! ## Monitoring and trim -/

/-- R105, R106, R109, R110, R111, R123: monitor records with their fields in the words of 11.5 (magnitude c in word 2 + 2c,
phase c in word 3 + 2c), the two quantities measured, the monitor state, and the expiries of the absence, hold-off and stale
timers. (That the absence and stale expiries change nothing where their timer does not run is the model's choice, log 2.) -/
def Obligations.MonitorRecordsAndTimers : Prop :=
  (∀ rec : MonRecord, rec.data.length = 18 →
    parseMonRecord (sealWords (rec.seq.setWidth 16 :: rec.flags :: rec.data)) = some rec)
  ∧ (∀ ws : List Word, (ws.length ≠ 20 → parseMonRecord (sealWords ws) = none)
      ∧ (ws.length = 20 → ∃ rec, parseMonRecord (sealWords ws) = some rec ∧ rec.seq.toNat = field (ws.getD 0 0) 0 8
        ∧ rec.flags = ws.getD 1 0 ∧ ∀ c, c ≤ 8 → rec.magnitude c = (ws.getD (2 + 2 * c) 0).toNat
          ∧ rec.phase c = (ws.getD (3 + 2 * c) 0).toNat))
  ∧ (∀ rx : Rx, checkedWords rx = none → parseMonRecord rx = none)
  ∧ (∀ (rec : MonRecord) (c : Nat), rec.channelValid c = true ↔ rec.flags.getLsbD c = true ∧ rec.phase c ≤ 35999)
  ∧ (∀ (rx : Rx) (s : State), s.running = true →
    (parseMonRecord rx = none → exec (.monitorRecord rx) s = .next s)
    ∧ ∀ rec, parseMonRecord rx = some rec →
      let u := s.setMon { s.mon with present := true, absence := some 0, lastSeq := some rec.seq }
      let v := if s.mon.present then u else u.raise .monitorPresent none [rec.seq.setWidth 16]
      (s.mon.lastSeq = some rec.seq ∨ s.mon.active = none → exec (.monitorRecord rx) s = .next v)
      ∧ (s.mon.lastSeq ≠ some rec.seq → ∀ p, s.mon.active = some p →
        let w := s.recordOf p
        let ref := if (w 4).toNat < 8 then (w 4).toNat else 8
        (s.mon.holdOff ≠ none ∨ rec.channelValid ref = false ∨ rec.magnitude ref < 1024 →
          exec (.monitorRecord rx) s = .next v)
        ∧ (s.mon.holdOff = none → rec.channelValid ref = true → 1024 ≤ rec.magnitude ref →
          exec (.monitorRecord rx) s = .next (allTowers.foldl (fun x t =>
            if has (recTowers w) t = true ∧ rec.channelValid t.val = true then
              let r := roundDiv (rec.magnitude t.val * 16384) (rec.magnitude ref)
              let a := fold ((rec.phase t.val : Int) - rec.phase ref)
              trimTower w p t r a (judgeTower w t r a rec.seq x)
            else x) v))))
  ∧ ∀ s : State, Counting s →
    (s.mon.present = true → s.mon.absence ≠ none → ∀ n, s.mon.lastSeq = some n → exec .absenceTimerExpiry s
      = .next ((s.setMon { s.mon with present := false, absence := none }).raise .monitorAbsent none [n.setWidth 16]))
    ∧ (s.mon.present = false ∨ s.mon.absence = none → exec .absenceTimerExpiry s = .next s)
    ∧ exec .holdOffExpiry s = .next (s.setMon { s.mon with holdOff := none })
    ∧ (∀ d t, s.scu.clock = .set d t → s.scu.stale ≠ none → exec .staleTimerExpiry s
        = .next ((s.setScu { s.scu with clock := .stale d t, stale := none }).raise .clockStale none
            (twoWords (timestamp d t))))
    ∧ (s.scu.stale = none ∨ (∀ d t, s.scu.clock ≠ .set d t) → exec .staleTimerExpiry s = .next s)

/-- R112, R113, R114: the status and count of an evaluated tower, and the fault action with its notice and
its codes. -/
def Obligations.ToleranceIsJudgedByTheTable : Prop :=
  [FaultAction.reported, .skippedSpent, .fallback, .skippedArmed, .skippedInterlock, .failedNotValid,
    .skippedState].map FaultAction.code = [1, 2, 3, 4, 5, 6, 7]
  ∧ (∀ (w : Nat → Word) (t : TowerIx) (r : Nat) (m : Int) (q : BitVec 8) (s : State),
    let x := s.mon.towers[t]
    let tolerated := ((r : Int) - recRatio w t).natAbs * 1000 ≤ recRatioTol w t * recRatio w t
      ∧ (fold (m - recLicPhase w t)).natAbs ≤ recPhaseTol w t
    let now := fun (status : Tolerance) (n : Nat) =>
      s.setMon { s.mon with towers := setAt s.mon.towers t { x with status := status, count := n } }
    (tolerated → x.status ≠ .fault → judgeTower w t r m q s = now .inTol 0)
    ∧ (tolerated → x.status = .fault → judgeTower w t r m q s = (now .inTol 0).raise .toleranceClear
        (subjectOf t.val) [word (min 65535 r), signedWord m, q.setWidth 16])
    ∧ (¬ tolerated → x.status = .fault → judgeTower w t r m q s = s)
    ∧ (¬ tolerated → x.status ≠ .fault →
      let n := if x.status = .out then x.count + 1 else 1
      (n < recGrace w → judgeTower w t r m q s = now .out n)
      ∧ (recGrace w ≤ n → judgeTower w t r m q s
          = (takeFaultAction w (now .fault (recGrace w))).1.raise .toleranceFault (subjectOf t.val)
              [word (min 65535 r), signedWord m, word (takeFaultAction w (now .fault (recGrace w))).2.code,
               q.setWidth 16])))
  ∧ ∀ (w : Nat → Word) (s : State),
    (recFallback w = none → takeFaultAction w s = (s, .reported))
    ∧ ∀ k, recFallback w = some k →
      (s.mon.spent = true → takeFaultAction w s = (s, .skippedSpent))
      ∧ (s.mon.spent = false → ∀ u a, request k (recMode (s.recordOf k)) none .fallback s = (u, a) →
        (∀ f, a = .armed f → takeFaultAction w s = (u.setMon { u.mon with spent := true }, .fallback))
        ∧ (a = .armedStands → takeFaultAction w s = (u, .skippedArmed))
        ∧ (a = .interlock → takeFaultAction w s = (u, .skippedInterlock))
        ∧ (a = .notValid → takeFaultAction w s = (u, .failedNotValid))
        ∧ ∀ b, a = .state b → takeFaultAction w s = (u, .skippedState))

/-- R20, R117, R119, R120: the trim step of an evaluated tower, its limit at the bounds, TRIM_LIMIT, and TRIM_CLEAR. (That
TRIM_LIMIT names the amplitude where both trims stand at their bounds is the model's choice, log 36; that TRIM_CLEAR clears the
limit-noticed flags for the active slot only is its reading, log 29.) -/
def Obligations.TrimStepsAreBounded : Prop :=
  (∀ (p : Pst) (k : Slot) (t : TowerIx) (a b : Int),
    (p.isValid k = false → p.trimUpdate k t a b = p)
    ∧ (p.isValid k = true →
      p.trimUpdate k t a b = { p with trims := (p.trimUpdate k t a b).trims }
      ∧ (p.trimUpdate k t a b).trim k t =
          { amp := max (-(recAmpBound (p.slotWord k) : Int)) (min (recAmpBound (p.slotWord k)) ((p.trim k t).amp + 16 * a))
            phase := max (-(recPhaseBound (p.slotWord k) : Int))
              (min (recPhaseBound (p.slotWord k)) ((p.trim k t).phase + 2 * b)) }
      ∧ ∀ (j : Slot) (u : TowerIx), j ≠ k ∨ u ≠ t → (p.trimUpdate k t a b).trim j u = p.trim j u))
  ∧ (∀ (w : Nat → Word) (k : Slot) (t : TowerIx) (r : Nat) (m : Int) (s : State),
      let e := fold (m - recLicPhase w t)
      let a : Int := if recRatioBand w * recRatio w t < ((r : Int) - recRatio w t).natAbs * 1000 then
          (if r < recRatio w t then 1 else -1) else 0
      let b : Int := if recPhaseBand w < e.natAbs then (if 0 < e then -1 else 1) else 0
      (recTrimOn w = false ∨ recReference w = some t ∨ (a = 0 ∧ b = 0) → trimTower w k t r m s = s)
      ∧ (recTrimOn w = true → recReference w ≠ some t → ¬ (a = 0 ∧ b = 0) →
        let limited := (a ≠ 0 ∧ (s.pst.trim k t).amp = a * recAmpBound w)
          ∨ (b ≠ 0 ∧ (s.pst.trim k t).phase = b * recPhaseBound w)
        (¬ limited ∨ s.mon.towers[t].limitNoticed = true →
          trimTower w k t r m s = s.setPst (s.pst.trimUpdate k t a b))
        ∧ (limited → s.mon.towers[t].limitNoticed = false → ∃ d, trimTower w k t r m s
          = ((s.setMon { s.mon with towers := setAt s.mon.towers t { s.mon.towers[t] with limitNoticed := true } }).raise
              .trimLimit (subjectOf t.val) d).setPst (s.pst.trimUpdate k t a b)
          ∧ (a ≠ 0 → (s.pst.trim k t).amp = a * recAmpBound w → d = [word k.val, 1, signedWord (s.pst.trim k t).amp])
          ∧ (a = 0 ∨ (s.pst.trim k t).amp ≠ a * recAmpBound w →
              d = [word k.val, 2, signedWord (s.pst.trim k t).phase]))))
  ∧ ∀ (m : Mgmt) (s : State), Serves .trimClear m s → ∃ (k : Slot) (t : State), k.val = m.num 0
      ∧ exec .trimClear s = .next (answered m .done [] t)
      ∧ t = (s.setPst { s.pst with trims := t.pst.trims }).setMon { s.mon with towers := t.mon.towers }
      ∧ (∀ u : TowerIx, t.pst.trim k u = { amp := 0, phase := 0 })
      ∧ (∀ (j : Slot) (u : TowerIx), j ≠ k → t.pst.trim j u = s.pst.trim j u)
      ∧ ∀ u : TowerIx, t.mon.towers[u] = { s.mon.towers[u] with
          limitNoticed := if s.txe.array = .active k then false else s.mon.towers[u].limitNoticed }

/-! ## Invariants -/

/-- Every law of the machine holds at reset. -/
def Obligations.ResetKeepsEveryLaw : Prop :=
  QueueLaw State.reset ∧ RingLaw State.reset ∧ DriveOffLaw State.reset ∧ TowerLaw State.reset ∧ ContactorLaw State.reset
  ∧ InUseLaw State.reset ∧ StoreLaw State.reset ∧ LoadLaw State.reset ∧ EngineLaw State.reset ∧ MonitorLaw State.reset
  ∧ ScheduleLaw State.reset

/-- Every step keeps the bounds of the queues and the laws of the receive state (R154, R155, R160 to R162, R165, R172). -/
def Obligations.StepsKeepTheQueueAndRingLaws : Prop :=
  ∀ s t : State, step s = .next t → (QueueLaw s → QueueLaw t) ∧ (RingLaw s → RingLaw t)

/-- Every step keeps every tower under REST while the interlock stands open or the ring is lost (R31, R35), and every applied
amplitude and phase in its range (section 2.1). -/
def Obligations.StepsKeepTheDriveLaws : Prop :=
  ∀ s t : State, step s = .next t → (DriveOffLaw s → DriveOffLaw t) ∧ (TowerLaw s → TowerLaw t)

/-- Every step keeps contactor states fitting their commanded positions and readings (R42), and none defined while RESET is
asserted (the model's choice, log 7). -/
def Obligations.StepsKeepTheContactorLaw : Prop := ∀ s t : State, step s = .next t → ContactorLaw s → ContactorLaw t

/-- Every step keeps the slots in use VALID and the directory agreeing with the claims, and keeps the regions apart and the
memories canonical (R1, R3, R79, R137). -/
def Obligations.StepsKeepTheStoreLaws : Prop :=
  ∀ s t : State, step s = .next t → InUseLaw s → StoreLaw s → InUseLaw t ∧ StoreLaw t

/-- Every step keeps the laws of claims and of the Load Buffer (R137, R141). -/
def Obligations.StepsKeepTheLoadLaw : Prop :=
  ∀ s t : State, step s = .next t → InUseLaw s → LoadLaw s → LoadLaw t

/-- Every step keeps the Armed Request out of flight and the newest history record OPEN exactly while a transition or a halt
stands (R58, R80, R81, R84). -/
def Obligations.StepsKeepTheEngineLaw : Prop := ∀ s t : State, step s = .next t → EngineLaw s → EngineLaw t

/-- Every step keeps MON on the pattern of ACTIVE with its counts, and the deferred and held-due entries on the hold flag
(R107, R108, R133). The last clause of ScheduleLaw, that no deferred or held-due entry stands for the occurrence its entry
fired last, is the model's choice for the deferred entry (log 38): it holds because a firing removes a deferred entry of the
same occurrence, which no rule names; R130 claims only that an entry fires at most once per date. -/
def Obligations.StepsKeepTheMonitorAndScheduleLaws : Prop :=
  ∀ s t : State, step s = .next t → (MonitorLaw s → MonitorLaw t) ∧ (ScheduleLaw s → ScheduleLaw t)
end

