-- ==== Sys2Proof/Laws/State.lean ====
section
/-! SUPPORT. One lemma per field per update of the state, and of the updates built on them. -/
namespace Sys2Proof.Machine

variable (s : State)

@[simp] theorem State.setRif_running (b : Rif) : (s.setRif b).running = s.running := rfl
@[simp] theorem State.setRif_refclk (b : Rif) : (s.setRif b).refclk = s.refclk := rfl
@[simp] theorem State.setRif_quarter (b : Rif) : (s.setRif b).quarter = s.quarter := rfl
@[simp] theorem State.setRif_rif (b : Rif) : (s.setRif b).rif = b := rfl
@[simp] theorem State.setRif_cmu (b : Rif) : (s.setRif b).cmu = s.cmu := rfl
@[simp] theorem State.setRif_pst (b : Rif) : (s.setRif b).pst = s.pst := rfl
@[simp] theorem State.setRif_ldu (b : Rif) : (s.setRif b).ldu = s.ldu := rfl
@[simp] theorem State.setRif_txe (b : Rif) : (s.setRif b).txe = s.txe := rfl
@[simp] theorem State.setRif_dsy (b : Rif) : (s.setRif b).dsy = s.dsy := rfl
@[simp] theorem State.setRif_ctu (b : Rif) : (s.setRif b).ctu = s.ctu := rfl
@[simp] theorem State.setRif_mon (b : Rif) : (s.setRif b).mon = s.mon := rfl
@[simp] theorem State.setRif_scu (b : Rif) : (s.setRif b).scu = s.scu := rfl
@[simp] theorem State.setRif_pending (b : Rif) : (s.setRif b).pending = s.pending := rfl

@[simp] theorem State.setCmu_running (b : Cmu) : (s.setCmu b).running = s.running := rfl
@[simp] theorem State.setCmu_refclk (b : Cmu) : (s.setCmu b).refclk = s.refclk := rfl
@[simp] theorem State.setCmu_quarter (b : Cmu) : (s.setCmu b).quarter = s.quarter := rfl
@[simp] theorem State.setCmu_rif (b : Cmu) : (s.setCmu b).rif = s.rif := rfl
@[simp] theorem State.setCmu_cmu (b : Cmu) : (s.setCmu b).cmu = b := rfl
@[simp] theorem State.setCmu_pst (b : Cmu) : (s.setCmu b).pst = s.pst := rfl
@[simp] theorem State.setCmu_ldu (b : Cmu) : (s.setCmu b).ldu = s.ldu := rfl
@[simp] theorem State.setCmu_txe (b : Cmu) : (s.setCmu b).txe = s.txe := rfl
@[simp] theorem State.setCmu_dsy (b : Cmu) : (s.setCmu b).dsy = s.dsy := rfl
@[simp] theorem State.setCmu_ctu (b : Cmu) : (s.setCmu b).ctu = s.ctu := rfl
@[simp] theorem State.setCmu_mon (b : Cmu) : (s.setCmu b).mon = s.mon := rfl
@[simp] theorem State.setCmu_scu (b : Cmu) : (s.setCmu b).scu = s.scu := rfl
@[simp] theorem State.setCmu_pending (b : Cmu) : (s.setCmu b).pending = s.pending := rfl

@[simp] theorem State.setPst_running (b : Pst) : (s.setPst b).running = s.running := rfl
@[simp] theorem State.setPst_refclk (b : Pst) : (s.setPst b).refclk = s.refclk := rfl
@[simp] theorem State.setPst_quarter (b : Pst) : (s.setPst b).quarter = s.quarter := rfl
@[simp] theorem State.setPst_rif (b : Pst) : (s.setPst b).rif = s.rif := rfl
@[simp] theorem State.setPst_cmu (b : Pst) : (s.setPst b).cmu = s.cmu := rfl
@[simp] theorem State.setPst_pst (b : Pst) : (s.setPst b).pst = b := rfl
@[simp] theorem State.setPst_ldu (b : Pst) : (s.setPst b).ldu = s.ldu := rfl
@[simp] theorem State.setPst_txe (b : Pst) : (s.setPst b).txe = s.txe := rfl
@[simp] theorem State.setPst_dsy (b : Pst) : (s.setPst b).dsy = s.dsy := rfl
@[simp] theorem State.setPst_ctu (b : Pst) : (s.setPst b).ctu = s.ctu := rfl
@[simp] theorem State.setPst_mon (b : Pst) : (s.setPst b).mon = s.mon := rfl
@[simp] theorem State.setPst_scu (b : Pst) : (s.setPst b).scu = s.scu := rfl
@[simp] theorem State.setPst_pending (b : Pst) : (s.setPst b).pending = s.pending := rfl

@[simp] theorem State.setLdu_running (b : Ldu) : (s.setLdu b).running = s.running := rfl
@[simp] theorem State.setLdu_refclk (b : Ldu) : (s.setLdu b).refclk = s.refclk := rfl
@[simp] theorem State.setLdu_quarter (b : Ldu) : (s.setLdu b).quarter = s.quarter := rfl
@[simp] theorem State.setLdu_rif (b : Ldu) : (s.setLdu b).rif = s.rif := rfl
@[simp] theorem State.setLdu_cmu (b : Ldu) : (s.setLdu b).cmu = s.cmu := rfl
@[simp] theorem State.setLdu_pst (b : Ldu) : (s.setLdu b).pst = s.pst := rfl
@[simp] theorem State.setLdu_ldu (b : Ldu) : (s.setLdu b).ldu = b := rfl
@[simp] theorem State.setLdu_txe (b : Ldu) : (s.setLdu b).txe = s.txe := rfl
@[simp] theorem State.setLdu_dsy (b : Ldu) : (s.setLdu b).dsy = s.dsy := rfl
@[simp] theorem State.setLdu_ctu (b : Ldu) : (s.setLdu b).ctu = s.ctu := rfl
@[simp] theorem State.setLdu_mon (b : Ldu) : (s.setLdu b).mon = s.mon := rfl
@[simp] theorem State.setLdu_scu (b : Ldu) : (s.setLdu b).scu = s.scu := rfl
@[simp] theorem State.setLdu_pending (b : Ldu) : (s.setLdu b).pending = s.pending := rfl

@[simp] theorem State.setTxe_running (b : Txe) : (s.setTxe b).running = s.running := rfl
@[simp] theorem State.setTxe_refclk (b : Txe) : (s.setTxe b).refclk = s.refclk := rfl
@[simp] theorem State.setTxe_quarter (b : Txe) : (s.setTxe b).quarter = s.quarter := rfl
@[simp] theorem State.setTxe_rif (b : Txe) : (s.setTxe b).rif = s.rif := rfl
@[simp] theorem State.setTxe_cmu (b : Txe) : (s.setTxe b).cmu = s.cmu := rfl
@[simp] theorem State.setTxe_pst (b : Txe) : (s.setTxe b).pst = s.pst := rfl
@[simp] theorem State.setTxe_ldu (b : Txe) : (s.setTxe b).ldu = s.ldu := rfl
@[simp] theorem State.setTxe_txe (b : Txe) : (s.setTxe b).txe = b := rfl
@[simp] theorem State.setTxe_dsy (b : Txe) : (s.setTxe b).dsy = s.dsy := rfl
@[simp] theorem State.setTxe_ctu (b : Txe) : (s.setTxe b).ctu = s.ctu := rfl
@[simp] theorem State.setTxe_mon (b : Txe) : (s.setTxe b).mon = s.mon := rfl
@[simp] theorem State.setTxe_scu (b : Txe) : (s.setTxe b).scu = s.scu := rfl
@[simp] theorem State.setTxe_pending (b : Txe) : (s.setTxe b).pending = s.pending := rfl

@[simp] theorem State.setDsy_running (b : Dsy) : (s.setDsy b).running = s.running := rfl
@[simp] theorem State.setDsy_refclk (b : Dsy) : (s.setDsy b).refclk = s.refclk := rfl
@[simp] theorem State.setDsy_quarter (b : Dsy) : (s.setDsy b).quarter = s.quarter := rfl
@[simp] theorem State.setDsy_rif (b : Dsy) : (s.setDsy b).rif = s.rif := rfl
@[simp] theorem State.setDsy_cmu (b : Dsy) : (s.setDsy b).cmu = s.cmu := rfl
@[simp] theorem State.setDsy_pst (b : Dsy) : (s.setDsy b).pst = s.pst := rfl
@[simp] theorem State.setDsy_ldu (b : Dsy) : (s.setDsy b).ldu = s.ldu := rfl
@[simp] theorem State.setDsy_txe (b : Dsy) : (s.setDsy b).txe = s.txe := rfl
@[simp] theorem State.setDsy_dsy (b : Dsy) : (s.setDsy b).dsy = b := rfl
@[simp] theorem State.setDsy_ctu (b : Dsy) : (s.setDsy b).ctu = s.ctu := rfl
@[simp] theorem State.setDsy_mon (b : Dsy) : (s.setDsy b).mon = s.mon := rfl
@[simp] theorem State.setDsy_scu (b : Dsy) : (s.setDsy b).scu = s.scu := rfl
@[simp] theorem State.setDsy_pending (b : Dsy) : (s.setDsy b).pending = s.pending := rfl

@[simp] theorem State.setCtu_running (b : Ctu) : (s.setCtu b).running = s.running := rfl
@[simp] theorem State.setCtu_refclk (b : Ctu) : (s.setCtu b).refclk = s.refclk := rfl
@[simp] theorem State.setCtu_quarter (b : Ctu) : (s.setCtu b).quarter = s.quarter := rfl
@[simp] theorem State.setCtu_rif (b : Ctu) : (s.setCtu b).rif = s.rif := rfl
@[simp] theorem State.setCtu_cmu (b : Ctu) : (s.setCtu b).cmu = s.cmu := rfl
@[simp] theorem State.setCtu_pst (b : Ctu) : (s.setCtu b).pst = s.pst := rfl
@[simp] theorem State.setCtu_ldu (b : Ctu) : (s.setCtu b).ldu = s.ldu := rfl
@[simp] theorem State.setCtu_txe (b : Ctu) : (s.setCtu b).txe = s.txe := rfl
@[simp] theorem State.setCtu_dsy (b : Ctu) : (s.setCtu b).dsy = s.dsy := rfl
@[simp] theorem State.setCtu_ctu (b : Ctu) : (s.setCtu b).ctu = b := rfl
@[simp] theorem State.setCtu_mon (b : Ctu) : (s.setCtu b).mon = s.mon := rfl
@[simp] theorem State.setCtu_scu (b : Ctu) : (s.setCtu b).scu = s.scu := rfl
@[simp] theorem State.setCtu_pending (b : Ctu) : (s.setCtu b).pending = s.pending := rfl

@[simp] theorem State.setMon_running (b : Mon) : (s.setMon b).running = s.running := rfl
@[simp] theorem State.setMon_refclk (b : Mon) : (s.setMon b).refclk = s.refclk := rfl
@[simp] theorem State.setMon_quarter (b : Mon) : (s.setMon b).quarter = s.quarter := rfl
@[simp] theorem State.setMon_rif (b : Mon) : (s.setMon b).rif = s.rif := rfl
@[simp] theorem State.setMon_cmu (b : Mon) : (s.setMon b).cmu = s.cmu := rfl
@[simp] theorem State.setMon_pst (b : Mon) : (s.setMon b).pst = s.pst := rfl
@[simp] theorem State.setMon_ldu (b : Mon) : (s.setMon b).ldu = s.ldu := rfl
@[simp] theorem State.setMon_txe (b : Mon) : (s.setMon b).txe = s.txe := rfl
@[simp] theorem State.setMon_dsy (b : Mon) : (s.setMon b).dsy = s.dsy := rfl
@[simp] theorem State.setMon_ctu (b : Mon) : (s.setMon b).ctu = s.ctu := rfl
@[simp] theorem State.setMon_mon (b : Mon) : (s.setMon b).mon = b := rfl
@[simp] theorem State.setMon_scu (b : Mon) : (s.setMon b).scu = s.scu := rfl
@[simp] theorem State.setMon_pending (b : Mon) : (s.setMon b).pending = s.pending := rfl

@[simp] theorem State.setScu_running (b : Scu) : (s.setScu b).running = s.running := rfl
@[simp] theorem State.setScu_refclk (b : Scu) : (s.setScu b).refclk = s.refclk := rfl
@[simp] theorem State.setScu_quarter (b : Scu) : (s.setScu b).quarter = s.quarter := rfl
@[simp] theorem State.setScu_rif (b : Scu) : (s.setScu b).rif = s.rif := rfl
@[simp] theorem State.setScu_cmu (b : Scu) : (s.setScu b).cmu = s.cmu := rfl
@[simp] theorem State.setScu_pst (b : Scu) : (s.setScu b).pst = s.pst := rfl
@[simp] theorem State.setScu_ldu (b : Scu) : (s.setScu b).ldu = s.ldu := rfl
@[simp] theorem State.setScu_txe (b : Scu) : (s.setScu b).txe = s.txe := rfl
@[simp] theorem State.setScu_dsy (b : Scu) : (s.setScu b).dsy = s.dsy := rfl
@[simp] theorem State.setScu_ctu (b : Scu) : (s.setScu b).ctu = s.ctu := rfl
@[simp] theorem State.setScu_mon (b : Scu) : (s.setScu b).mon = s.mon := rfl
@[simp] theorem State.setScu_scu (b : Scu) : (s.setScu b).scu = b := rfl
@[simp] theorem State.setScu_pending (b : Scu) : (s.setScu b).pending = s.pending := rfl

@[simp] theorem State.setPending_running (q : List Instr) : (s.setPending q).running = s.running := rfl
@[simp] theorem State.setPending_refclk (q : List Instr) : (s.setPending q).refclk = s.refclk := rfl
@[simp] theorem State.setPending_quarter (q : List Instr) : (s.setPending q).quarter = s.quarter := rfl
@[simp] theorem State.setPending_rif (q : List Instr) : (s.setPending q).rif = s.rif := rfl
@[simp] theorem State.setPending_cmu (q : List Instr) : (s.setPending q).cmu = s.cmu := rfl
@[simp] theorem State.setPending_pst (q : List Instr) : (s.setPending q).pst = s.pst := rfl
@[simp] theorem State.setPending_ldu (q : List Instr) : (s.setPending q).ldu = s.ldu := rfl
@[simp] theorem State.setPending_txe (q : List Instr) : (s.setPending q).txe = s.txe := rfl
@[simp] theorem State.setPending_dsy (q : List Instr) : (s.setPending q).dsy = s.dsy := rfl
@[simp] theorem State.setPending_ctu (q : List Instr) : (s.setPending q).ctu = s.ctu := rfl
@[simp] theorem State.setPending_mon (q : List Instr) : (s.setPending q).mon = s.mon := rfl
@[simp] theorem State.setPending_scu (q : List Instr) : (s.setPending q).scu = s.scu := rfl
@[simp] theorem State.setPending_pending (q : List Instr) : (s.setPending q).pending = q := rfl

@[simp] theorem State.setRefclk_running (on : Bool) : (s.setRefclk on).running = s.running := rfl
@[simp] theorem State.setRefclk_refclk (on : Bool) : (s.setRefclk on).refclk = on := rfl
@[simp] theorem State.setRefclk_quarter (on : Bool) : (s.setRefclk on).quarter = s.quarter := rfl
@[simp] theorem State.setRefclk_rif (on : Bool) : (s.setRefclk on).rif = s.rif := rfl
@[simp] theorem State.setRefclk_cmu (on : Bool) : (s.setRefclk on).cmu = s.cmu := rfl
@[simp] theorem State.setRefclk_pst (on : Bool) : (s.setRefclk on).pst = s.pst := rfl
@[simp] theorem State.setRefclk_ldu (on : Bool) : (s.setRefclk on).ldu = s.ldu := rfl
@[simp] theorem State.setRefclk_txe (on : Bool) : (s.setRefclk on).txe = s.txe := rfl
@[simp] theorem State.setRefclk_dsy (on : Bool) : (s.setRefclk on).dsy = s.dsy := rfl
@[simp] theorem State.setRefclk_ctu (on : Bool) : (s.setRefclk on).ctu = s.ctu := rfl
@[simp] theorem State.setRefclk_mon (on : Bool) : (s.setRefclk on).mon = s.mon := rfl
@[simp] theorem State.setRefclk_scu (on : Bool) : (s.setRefclk on).scu = s.scu := rfl
@[simp] theorem State.setRefclk_pending (on : Bool) : (s.setRefclk on).pending = s.pending := rfl

@[simp] theorem State.setArray_running (a : ArrayState) : (s.setArray a).running = s.running := rfl
@[simp] theorem State.setArray_refclk (a : ArrayState) : (s.setArray a).refclk = s.refclk := rfl
@[simp] theorem State.setArray_quarter (a : ArrayState) : (s.setArray a).quarter = s.quarter := rfl
@[simp] theorem State.setArray_rif (a : ArrayState) : (s.setArray a).rif = s.rif := rfl
@[simp] theorem State.setArray_cmu (a : ArrayState) : (s.setArray a).cmu = s.cmu := rfl
@[simp] theorem State.setArray_pst (a : ArrayState) : (s.setArray a).pst = s.pst := rfl
@[simp] theorem State.setArray_ldu (a : ArrayState) : (s.setArray a).ldu = s.ldu := rfl
@[simp] theorem State.setArray_txe (a : ArrayState) : (s.setArray a).txe = { s.txe with array := a } := rfl
@[simp] theorem State.setArray_dsy (a : ArrayState) : (s.setArray a).dsy = s.dsy := rfl
@[simp] theorem State.setArray_ctu (a : ArrayState) : (s.setArray a).ctu = s.ctu := rfl
@[simp] theorem State.setArray_mon (a : ArrayState) : (s.setArray a).mon = s.mon := rfl
@[simp] theorem State.setArray_scu (a : ArrayState) : (s.setArray a).scu = s.scu := rfl
@[simp] theorem State.setArray_pending (a : ArrayState) : (s.setArray a).pending = s.pending := rfl

@[simp] theorem State.setArmed_running (a : Option Armed) : (s.setArmed a).running = s.running := rfl
@[simp] theorem State.setArmed_refclk (a : Option Armed) : (s.setArmed a).refclk = s.refclk := rfl
@[simp] theorem State.setArmed_quarter (a : Option Armed) : (s.setArmed a).quarter = s.quarter := rfl
@[simp] theorem State.setArmed_rif (a : Option Armed) : (s.setArmed a).rif = s.rif := rfl
@[simp] theorem State.setArmed_cmu (a : Option Armed) : (s.setArmed a).cmu = s.cmu := rfl
@[simp] theorem State.setArmed_pst (a : Option Armed) : (s.setArmed a).pst = s.pst := rfl
@[simp] theorem State.setArmed_ldu (a : Option Armed) : (s.setArmed a).ldu = s.ldu := rfl
@[simp] theorem State.setArmed_txe (a : Option Armed) : (s.setArmed a).txe = { s.txe with armed := a } := rfl
@[simp] theorem State.setArmed_dsy (a : Option Armed) : (s.setArmed a).dsy = s.dsy := rfl
@[simp] theorem State.setArmed_ctu (a : Option Armed) : (s.setArmed a).ctu = s.ctu := rfl
@[simp] theorem State.setArmed_mon (a : Option Armed) : (s.setArmed a).mon = s.mon := rfl
@[simp] theorem State.setArmed_scu (a : Option Armed) : (s.setArmed a).scu = s.scu := rfl
@[simp] theorem State.setArmed_pending (a : Option Armed) : (s.setArmed a).pending = s.pending := rfl

@[simp] theorem State.setHistory_running (h : List HistRecord) : (s.setHistory h).running = s.running := rfl
@[simp] theorem State.setHistory_refclk (h : List HistRecord) : (s.setHistory h).refclk = s.refclk := rfl
@[simp] theorem State.setHistory_quarter (h : List HistRecord) : (s.setHistory h).quarter = s.quarter := rfl
@[simp] theorem State.setHistory_rif (h : List HistRecord) : (s.setHistory h).rif = s.rif := rfl
@[simp] theorem State.setHistory_cmu (h : List HistRecord) : (s.setHistory h).cmu = s.cmu := rfl
@[simp] theorem State.setHistory_pst (h : List HistRecord) : (s.setHistory h).pst = s.pst := rfl
@[simp] theorem State.setHistory_ldu (h : List HistRecord) : (s.setHistory h).ldu = s.ldu := rfl
@[simp] theorem State.setHistory_txe (h : List HistRecord) : (s.setHistory h).txe = { s.txe with history := h } := rfl
@[simp] theorem State.setHistory_dsy (h : List HistRecord) : (s.setHistory h).dsy = s.dsy := rfl
@[simp] theorem State.setHistory_ctu (h : List HistRecord) : (s.setHistory h).ctu = s.ctu := rfl
@[simp] theorem State.setHistory_mon (h : List HistRecord) : (s.setHistory h).mon = s.mon := rfl
@[simp] theorem State.setHistory_scu (h : List HistRecord) : (s.setHistory h).scu = s.scu := rfl
@[simp] theorem State.setHistory_pending (h : List HistRecord) : (s.setHistory h).pending = s.pending := rfl

@[simp] theorem State.enter_running (r : Record) : (s.enter r).running = s.running := rfl
@[simp] theorem State.enter_refclk (r : Record) : (s.enter r).refclk = s.refclk := rfl
@[simp] theorem State.enter_quarter (r : Record) : (s.enter r).quarter = s.quarter := rfl
@[simp] theorem State.enter_rif (r : Record) : (s.enter r).rif = s.rif := rfl
@[simp] theorem State.enter_cmu (r : Record) : (s.enter r).cmu = s.cmu.enter r := rfl
@[simp] theorem State.enter_pst (r : Record) : (s.enter r).pst = s.pst := rfl
@[simp] theorem State.enter_ldu (r : Record) : (s.enter r).ldu = s.ldu := rfl
@[simp] theorem State.enter_txe (r : Record) : (s.enter r).txe = s.txe := rfl
@[simp] theorem State.enter_dsy (r : Record) : (s.enter r).dsy = s.dsy := rfl
@[simp] theorem State.enter_ctu (r : Record) : (s.enter r).ctu = s.ctu := rfl
@[simp] theorem State.enter_mon (r : Record) : (s.enter r).mon = s.mon := rfl
@[simp] theorem State.enter_scu (r : Record) : (s.enter r).scu = s.scu := rfl
@[simp] theorem State.enter_pending (r : Record) : (s.enter r).pending = s.pending := rfl

@[simp] theorem State.raise_running (k : NoticeKind) (u : Option (BitVec 8)) (d : List Word) : (s.raise k u d).running = s.running := rfl
@[simp] theorem State.raise_refclk (k : NoticeKind) (u : Option (BitVec 8)) (d : List Word) : (s.raise k u d).refclk = s.refclk := rfl
@[simp] theorem State.raise_quarter (k : NoticeKind) (u : Option (BitVec 8)) (d : List Word) : (s.raise k u d).quarter = s.quarter := rfl
@[simp] theorem State.raise_rif (k : NoticeKind) (u : Option (BitVec 8)) (d : List Word) : (s.raise k u d).rif = s.rif := rfl
@[simp] theorem State.raise_cmu (k : NoticeKind) (u : Option (BitVec 8)) (d : List Word) : (s.raise k u d).cmu = s.cmu.enter (.notice k s.stamp u none d) := rfl
@[simp] theorem State.raise_pst (k : NoticeKind) (u : Option (BitVec 8)) (d : List Word) : (s.raise k u d).pst = s.pst := rfl
@[simp] theorem State.raise_ldu (k : NoticeKind) (u : Option (BitVec 8)) (d : List Word) : (s.raise k u d).ldu = s.ldu := rfl
@[simp] theorem State.raise_txe (k : NoticeKind) (u : Option (BitVec 8)) (d : List Word) : (s.raise k u d).txe = s.txe := rfl
@[simp] theorem State.raise_dsy (k : NoticeKind) (u : Option (BitVec 8)) (d : List Word) : (s.raise k u d).dsy = s.dsy := rfl
@[simp] theorem State.raise_ctu (k : NoticeKind) (u : Option (BitVec 8)) (d : List Word) : (s.raise k u d).ctu = s.ctu := rfl
@[simp] theorem State.raise_mon (k : NoticeKind) (u : Option (BitVec 8)) (d : List Word) : (s.raise k u d).mon = s.mon := rfl
@[simp] theorem State.raise_scu (k : NoticeKind) (u : Option (BitVec 8)) (d : List Word) : (s.raise k u d).scu = s.scu := rfl
@[simp] theorem State.raise_pending (k : NoticeKind) (u : Option (BitVec 8)) (d : List Word) : (s.raise k u d).pending = s.pending := rfl

@[simp] theorem State.setContactor_running (c : ContactorIx) (e : Contactor) : (s.setContactor c e).running = s.running := rfl
@[simp] theorem State.setContactor_refclk (c : ContactorIx) (e : Contactor) : (s.setContactor c e).refclk = s.refclk := rfl
@[simp] theorem State.setContactor_quarter (c : ContactorIx) (e : Contactor) : (s.setContactor c e).quarter = s.quarter := rfl
@[simp] theorem State.setContactor_rif (c : ContactorIx) (e : Contactor) : (s.setContactor c e).rif = s.rif := rfl
@[simp] theorem State.setContactor_cmu (c : ContactorIx) (e : Contactor) : (s.setContactor c e).cmu = s.cmu := rfl
@[simp] theorem State.setContactor_pst (c : ContactorIx) (e : Contactor) : (s.setContactor c e).pst = s.pst := rfl
@[simp] theorem State.setContactor_ldu (c : ContactorIx) (e : Contactor) : (s.setContactor c e).ldu = s.ldu := rfl
@[simp] theorem State.setContactor_txe (c : ContactorIx) (e : Contactor) : (s.setContactor c e).txe = s.txe := rfl
@[simp] theorem State.setContactor_dsy (c : ContactorIx) (e : Contactor) : (s.setContactor c e).dsy = s.dsy := rfl
@[simp] theorem State.setContactor_ctu (c : ContactorIx) (e : Contactor) : (s.setContactor c e).ctu = s.ctu.setEntry c (some e) := rfl
@[simp] theorem State.setContactor_mon (c : ContactorIx) (e : Contactor) : (s.setContactor c e).mon = s.mon := rfl
@[simp] theorem State.setContactor_scu (c : ContactorIx) (e : Contactor) : (s.setContactor c e).scu = s.scu := rfl
@[simp] theorem State.setContactor_pending (c : ContactorIx) (e : Contactor) : (s.setContactor c e).pending = s.pending := rfl

@[simp] theorem State.setClaim_running (t : Target) (c : Option Claim) : (s.setClaim t c).running = s.running := rfl
@[simp] theorem State.setClaim_refclk (t : Target) (c : Option Claim) : (s.setClaim t c).refclk = s.refclk := rfl
@[simp] theorem State.setClaim_quarter (t : Target) (c : Option Claim) : (s.setClaim t c).quarter = s.quarter := rfl
@[simp] theorem State.setClaim_rif (t : Target) (c : Option Claim) : (s.setClaim t c).rif = s.rif := rfl
@[simp] theorem State.setClaim_cmu (t : Target) (c : Option Claim) : (s.setClaim t c).cmu = s.cmu := rfl
@[simp] theorem State.setClaim_pst (t : Target) (c : Option Claim) : (s.setClaim t c).pst = s.pst := rfl
@[simp] theorem State.setClaim_ldu (t : Target) (c : Option Claim) : (s.setClaim t c).ldu = { s.ldu with claims := setAt s.ldu.claims t c } := rfl
@[simp] theorem State.setClaim_txe (t : Target) (c : Option Claim) : (s.setClaim t c).txe = s.txe := rfl
@[simp] theorem State.setClaim_dsy (t : Target) (c : Option Claim) : (s.setClaim t c).dsy = s.dsy := rfl
@[simp] theorem State.setClaim_ctu (t : Target) (c : Option Claim) : (s.setClaim t c).ctu = s.ctu := rfl
@[simp] theorem State.setClaim_mon (t : Target) (c : Option Claim) : (s.setClaim t c).mon = s.mon := rfl
@[simp] theorem State.setClaim_scu (t : Target) (c : Option Claim) : (s.setClaim t c).scu = s.scu := rfl
@[simp] theorem State.setClaim_pending (t : Target) (c : Option Claim) : (s.setClaim t c).pending = s.pending := rfl

@[simp] theorem setGuard_running (g : Option Slot) : (setGuard g s).running = s.running := rfl
@[simp] theorem setGuard_refclk (g : Option Slot) : (setGuard g s).refclk = s.refclk := rfl
@[simp] theorem setGuard_quarter (g : Option Slot) : (setGuard g s).quarter = s.quarter := rfl
@[simp] theorem setGuard_rif (g : Option Slot) : (setGuard g s).rif = s.rif := rfl
@[simp] theorem setGuard_cmu (g : Option Slot) : (setGuard g s).cmu = s.cmu := rfl
@[simp] theorem setGuard_pst (g : Option Slot) : (setGuard g s).pst = s.pst := rfl
@[simp] theorem setGuard_ldu (g : Option Slot) : (setGuard g s).ldu = s.ldu := rfl
@[simp] theorem setGuard_txe (g : Option Slot) : (setGuard g s).txe = s.txe := rfl
@[simp] theorem setGuard_dsy (g : Option Slot) : (setGuard g s).dsy = s.dsy := rfl
@[simp] theorem setGuard_ctu (g : Option Slot) : (setGuard g s).ctu = { s.ctu with guard := g } := rfl
@[simp] theorem setGuard_mon (g : Option Slot) : (setGuard g s).mon = s.mon := rfl
@[simp] theorem setGuard_scu (g : Option Slot) : (setGuard g s).scu = s.scu := rfl
@[simp] theorem setGuard_pending (g : Option Slot) : (setGuard g s).pending = s.pending := rfl

end Sys2Proof.Machine
end

