-- ==== Sys2Proof/Laws/Ops.lean ====
section
/-! SUPPORT. The shared operations of Machine/Ops.lean, the execution of commands, frames and command codes, each said once. -/
namespace Sys2Proof.Machine

/-! ## Indexed blocks and sets -/

@[simp] theorem setAt_get {α : Type} {n : Nat} (v : Vector α n) (i j : Fin n) (x : α) :
    (setAt v i x)[j] = if j = i then x else v[j] := by
  simp only [setAt, Fin.getElem_fin, Vector.getElem_set, Fin.ext_iff, eq_comm]

@[simp] theorem modifyAt_get {α : Type} {n : Nat} (v : Vector α n) (i j : Fin n) (f : α → α) :
    (modifyAt v i f)[j] = if j = i then f v[i] else v[j] := by
  simp only [modifyAt, setAt_get]

/-- Vectors with the same entries are equal. -/
theorem vector_ext {α : Type} {n : Nat} {v w : Vector α n} (h : ∀ i : Fin n, v[i] = w[i]) : v = w :=
  Vector.ext fun i hi => h ⟨i, hi⟩

@[simp] theorem ofFn_get {α : Type} {n : Nat} (f : Fin n → α) (i : Fin n) : (Vector.ofFn f)[i] = f i := by simp

@[simp] theorem map_get {α β : Type} {n : Nat} (f : α → β) (v : Vector α n) (i : Fin n) : (v.map f)[i] = f v[i] := by simp

@[simp] theorem mem_allTowers (t : TowerIx) : t ∈ allTowers := by revert t; decide
@[simp] theorem mem_allSlots (k : Slot) : k ∈ allSlots := List.mem_finRange k
@[simp] theorem mem_allContactors (c : ContactorIx) : c ∈ allContactors := List.mem_finRange c
@[simp] theorem mem_allEntries (i : EntryIx) : i ∈ allEntries := List.mem_finRange i
@[simp] theorem mem_allTargets (t : Target) : t ∈ allTargets := List.mem_finRange t

@[simp] theorem has_insertIx {n : Nat} (s : BitVec n) (i j : Fin n) : has (insertIx s i) j = (has s j || decide (j = i)) := by
  have hj := j.isLt
  simp only [has, insertIx, BitVec.getLsbD_or, BitVec.getLsbD_twoPow, Fin.ext_iff, eq_comm (a := i.val)]
  simp [hj]

@[simp] theorem has_or {n : Nat} (s u : BitVec n) (j : Fin n) : has (s ||| u) j = (has s j || has u j) := by simp [has]

@[simp] theorem has_and {n : Nat} (s u : BitVec n) (j : Fin n) : has (s &&& u) j = (has s j && has u j) := by simp [has]

@[simp] theorem has_not {n : Nat} (s : BitVec n) (j : Fin n) : has (~~~s) j = !has s j := by simp [has, j.isLt]

@[simp] theorem has_zero {n : Nat} (j : Fin n) : has (0 : BitVec n) j = false := by simp [has]

@[simp] theorem has_ofNat_zero {n : Nat} (j : Fin n) : has (0#n) j = false := has_zero j

/-- A set is empty when it has no member. -/
theorem set_eq_zero {n : Nat} (s : BitVec n) : s = 0 ↔ ∀ j : Fin n, has s j = false := by
  constructor
  · rintro rfl j; exact has_zero j
  · intro h
    apply BitVec.eq_of_getLsbD_eq
    intro i hi
    simpa [has] using h ⟨i, hi⟩

/-- The at-rest test of a set of towers. -/
theorem restIn_iff (d : Dsy) (s : TowerSet) : d.restIn s = true ↔ ∀ t : TowerIx, has s t = true → d.atRest t = true := by
  simp only [Dsy.restIn, List.all_eq_true, mem_allTowers, forall_const, Bool.or_eq_true, Bool.not_eq_true']
  constructor
  · intro h t ht
    rcases h t with h | h
    · simp [h] at ht
    · exact h
  · intro h t
    cases hh : has s t
    · exact .inl rfl
    · exact .inr (h t hh)

/-- All eight towers at rest. -/
theorem allAtRest_iff (d : Dsy) : d.allAtRest = true ↔ ∀ t : TowerIx, d.atRest t = true := by
  simp [Dsy.allAtRest]

/-- The towers an association names. -/
theorem has_assoc (a : Assoc) (t : TowerIx) : has a.towers t = true ↔ a = .tower t ∨ a = .common := by
  cases a with
  | common => simp only [reduceCtorEq, or_true, iff_true]; revert t; decide
  | tower u => simp only [Assoc.tower.injEq, reduceCtorEq, or_false]; revert t u; decide

/-! ## The Report Queue -/

theorem Cmu.enter_of_room {c : Cmu} (h : c.reports.length < 32) (r : Record) :
    c.enter r = { c with reports := c.reports ++ [r] } := if_pos h

theorem Cmu.enter_of_full {c : Cmu} (h : 32 ≤ c.reports.length) (r : Record) : c.enter r = { c with overflow := true } :=
  if_neg (by omega)

@[simp] theorem Cmu.enter_queue (c : Cmu) (r : Record) : (c.enter r).queue = c.queue := by unfold Cmu.enter; split <;> rfl

/-- A record never makes the queue longer than 32, and never removes one. -/
theorem Cmu.enter_length {c : Cmu} (h : c.reports.length ≤ 32) (r : Record) : (c.enter r).reports.length ≤ 32 := by
  unfold Cmu.enter; split
  · simp; omega
  · exact h

theorem Cmu.enter_keeps {c : Cmu} {x : Record} (h : x ∈ c.reports) (r : Record) : x ∈ (c.enter r).reports := by
  unfold Cmu.enter; split
  · simp [h]
  · exact h

theorem Cmu.mem_enter {c : Cmu} (h : c.reports.length < 32) (r : Record) : r ∈ (c.enter r).reports := by
  rw [Cmu.enter_of_room h]; simp

theorem Cmu.enter_length_succ (c : Cmu) (r : Record) : (c.enter r).reports.length ≤ c.reports.length + 1 := by
  unfold Cmu.enter; split <;> simp

/-! ## Commands -/

/-- A command whose frame stands at the head and passes the tests of R166 is handed to its block and answered. -/
theorem serve_taken {c : Cmd} {m : Mgmt} {s : State} (body : Mgmt → State → State × Answer)
    (hr : s.running = true) (hq : s.cmu.queue.head? = some m) (hc : Cmd.ofCode m.code = some c) (hp : precheck c m = none) :
    whileRunning (serve c body) s = finishCommand m (body m s) := by
  cases hqq : s.cmu.queue with
  | nil => simp [hqq] at hq
  | cons x xs =>
    obtain rfl : x = m := by simpa [hqq] using hq
    simp [whileRunning, hr, serve, hqq, hc, runCommand, hp]

/-- One that fails a test of R166 is answered with that refusal. -/
theorem serve_refused {c : Cmd} {m : Mgmt} {s : State} {a : Answer} (body : Mgmt → State → State × Answer)
    (hr : s.running = true) (hq : s.cmu.queue.head? = some m) (hc : Cmd.ofCode m.code = some c) (hp : precheck c m = some a) :
    whileRunning (serve c body) s = finishCommand m (s, a) := by
  cases hqq : s.cmu.queue with
  | nil => simp [hqq] at hq
  | cons x xs =>
    obtain rfl : x = m := by simpa [hqq] using hq
    simp [whileRunning, hr, serve, hqq, hc, runCommand, hp]

/-- What an answered command leaves of each block. -/
theorem finishCommand_state (m : Mgmt) (r : State × Answer) :
    finishCommand m r = r.1.setCmu (({ r.1.cmu with queue := r.1.cmu.queue.tail } : Cmu).enter
      (.ret m.tag m.source m.code r.2.outcome r.2.data)) := rfl

/-! ## Activation frames (R60, R77) -/

theorem resolveFrame_late {c a : FrameNum} (h : (a - c).toNat < 2 ∨ 2 ^ 31 ≤ (a - c).toNat) :
    resolveFrame (some c) (some a) = .error .late := by
  simp only [resolveFrame, frameCheck, if_pos (show aheadBy a c < 2 ∨ 2 ^ 31 ≤ aheadBy a c from h)]

theorem resolveFrame_far {c a : FrameNum} (h : 2 ^ 20 < (a - c).toNat) (k : (a - c).toNat < 2 ^ 31) :
    resolveFrame (some c) (some a) = .error .far := by
  have h1 : ¬ (aheadBy a c < 2 ∨ 2 ^ 31 ≤ aheadBy a c) := by
    rw [not_or, Nat.not_lt, Nat.not_le]; exact ⟨Nat.le_trans (by decide) (Nat.le_of_lt h), k⟩
  simp only [resolveFrame, frameCheck, if_neg h1, if_pos (show 2 ^ 20 < aheadBy a c from h)]

theorem resolveFrame_ok {c a : FrameNum} (h : 2 ≤ (a - c).toNat) (k : (a - c).toNat ≤ 2 ^ 20) :
    resolveFrame (some c) (some a) = .ok a := by
  have h1 : ¬ (aheadBy a c < 2 ∨ 2 ^ 31 ≤ aheadBy a c) := by
    rw [not_or, Nat.not_lt, Nat.not_le]; exact ⟨h, Nat.lt_of_le_of_lt k (by decide)⟩
  simp only [resolveFrame, frameCheck, if_neg h1, if_neg (show ¬ 2 ^ 20 < aheadBy a c from Nat.not_lt.2 k)]

theorem resolveFrame_next (c : FrameNum) : resolveFrame (some c) none = .ok (c + 1) := rfl

theorem resolveFrame_none (a : Option FrameNum) : resolveFrame none a = .error .late := by cases a <;> rfl

/-! ## The check word -/

@[simp] theorem withValue_eq {α : Type} (r : Word) (k : Word → α) : withValue r k = k r := by
  unfold withValue
  split
  · rename_i h
    rw [BitVec.eq_of_toNat_eq (x := 0) (y := r) (by rw [h]; rfl)]
  · rename_i n h
    rw [show n + 1 = r.toNat from h.symm, BitVec.ofNat_toNat, BitVec.setWidth_eq]

/-- The register goes over the words one after the other. -/
theorem crcWords_eq_foldl (r : Word) (ws : List Word) : crcWords r ws = ws.foldl crcWord r := by
  induction ws generalizing r with
  | nil => rfl
  | cons w ws ih => rw [crcWords, withValue_eq, ih, List.foldl_cons]

/-! ## Frames and codes -/

/-- A whole frame's words are those its check word was formed over. -/
@[simp] theorem checkedWords_sealWords (ws : List Word) : checkedWords (sealWords ws) = some ws := by
  simp [checkedWords, sealWords]

theorem joinWords_toNat (hi lo : Word) : (joinWords hi lo).toNat = hi.toNat * 65536 + lo.toNat := by
  simp only [joinWords, BitVec.toNat_append]
  rw [← Nat.shiftLeft_add_eq_or_of_lt lo.isLt, Nat.shiftLeft_eq]

theorem Cmd.ofCode_iff (b : BitVec 8) (c : Cmd) : Cmd.ofCode b = some c ↔ b = c.code := by
  constructor
  · intro h
    have hc := List.find?_some h
    exact (beq_iff_eq.1 hc).symm
  · rintro rfl
    cases c <;> rfl

/-- A code outside 1 to 20 names no command (R166). -/
theorem Cmd.ofCode_eq_none {b : BitVec 8} (h : b = 0 ∨ 20 < b.toNat) : Cmd.ofCode b = none := by
  unfold Cmd.ofCode
  rw [List.find?_eq_none]
  intro c _ hc
  have hb : c.code = b := beq_iff_eq.1 hc
  subst hb
  rcases h with h | h <;> cases c <;> revert h <;> decide

end Sys2Proof.Machine
end

