-- ==== Sys2Proof/Laws/Frames.lean ====
section
/-! SUPPORT. What each shared operation of the Transition Engine, the Drive Synthesizer, the Contactor Unit, the Monitor Unit
and the Schedule Unit leaves alone, said once; RIF after a sample frame. -/
namespace Sys2Proof.Machine

/-- t differs from s in the drive, contactor, engine, monitor and schedule blocks and in the Report Queue only, and the Report
Queue is no longer than 32 if it was not. -/
structure Keeps (s t : State) : Prop where
  running : t.running = s.running
  refclk  : t.refclk = s.refclk
  quarter : t.quarter = s.quarter
  rif     : t.rif = s.rif
  pst     : t.pst = s.pst
  ldu     : t.ldu = s.ldu
  pending : t.pending = s.pending
  queue   : t.cmu.queue = s.cmu.queue
  reports : s.cmu.reports.length ≤ 32 → t.cmu.reports.length ≤ 32

theorem Keeps.refl (s : State) : Keeps s s := ⟨rfl, rfl, rfl, rfl, rfl, rfl, rfl, rfl, id⟩

theorem Keeps.trans {s t u : State} (h : Keeps s t) (k : Keeps t u) : Keeps s u :=
  ⟨k.running.trans h.running, k.refclk.trans h.refclk, k.quarter.trans h.quarter, k.rif.trans h.rif, k.pst.trans h.pst,
   k.ldu.trans h.ldu, k.pending.trans h.pending, k.queue.trans h.queue, fun x => k.reports (h.reports x)⟩

/-- A list of operations that each keep the others keeps them. -/
theorem Keeps.foldl {α : Type} (f : State → α → State) (h : ∀ s a, Keeps s (f s a)) (l : List α) (s : State) :
    Keeps s (l.foldl f s) := by
  induction l generalizing s with
  | nil => exact .refl s
  | cons a l ih => exact (h s a).trans (ih _)

variable (s : State)

theorem setTxe_keeps (b : Txe) : Keeps s (s.setTxe b) := ⟨rfl, rfl, rfl, rfl, rfl, rfl, rfl, rfl, id⟩
theorem setDsy_keeps (b : Dsy) : Keeps s (s.setDsy b) := ⟨rfl, rfl, rfl, rfl, rfl, rfl, rfl, rfl, id⟩
theorem setCtu_keeps (b : Ctu) : Keeps s (s.setCtu b) := ⟨rfl, rfl, rfl, rfl, rfl, rfl, rfl, rfl, id⟩
theorem setMon_keeps (b : Mon) : Keeps s (s.setMon b) := ⟨rfl, rfl, rfl, rfl, rfl, rfl, rfl, rfl, id⟩
theorem setScu_keeps (b : Scu) : Keeps s (s.setScu b) := ⟨rfl, rfl, rfl, rfl, rfl, rfl, rfl, rfl, id⟩
theorem setArray_keeps (a : ArrayState) : Keeps s (s.setArray a) := setTxe_keeps ..
theorem setArmed_keeps (a : Option Armed) : Keeps s (s.setArmed a) := setTxe_keeps ..
theorem setHistory_keeps (h : List HistRecord) : Keeps s (s.setHistory h) := setTxe_keeps ..
theorem setContactor_keeps (c : ContactorIx) (e : Contactor) : Keeps s (s.setContactor c e) := setCtu_keeps ..
theorem setGuard_keeps (g : Option Slot) : Keeps s (setGuard g s) := setCtu_keeps ..
theorem closeRecord_keeps (o : HistOutcome) (f : FrameNum) : Keeps s (closeRecord o f s) := setHistory_keeps ..

theorem enter_keeps (r : Record) : Keeps s (s.enter r) :=
  ⟨rfl, rfl, rfl, rfl, rfl, rfl, rfl, Cmu.enter_queue .., fun h => Cmu.enter_length h r⟩

theorem raise_keeps (k : NoticeKind) (b : Option (BitVec 8)) (d : List Word) : Keeps s (s.raise k b d) := enter_keeps ..

/-! ## Requests and reports -/

theorem withdraw_keeps (r : WithdrawReason) : Keeps s (withdraw r s) := by
  unfold withdraw; split
  · exact .refl s
  · exact (setArmed_keeps ..).trans (raise_keeps ..)

theorem request_keeps (k : Slot) (m : ReqMode) (f : Option FrameNum) (c : Cause) : Keeps s (request k m f c s).1 := by
  unfold request; split
  · split
    · exact .refl s
    · split
      · exact setArmed_keeps ..
      · exact .refl s
  all_goals exact .refl s

theorem raiseDue_keeps (o : Occurrence) (a : DueOutcome) (r : DueReason) (f : Option FrameNum) : Keeps s (raiseDue o a r f s) :=
  raise_keeps ..

theorem defer_keeps (o : Occurrence) : Keeps s (defer o s) := by
  unfold defer
  refine .trans ?_ (setScu_keeps ..)
  split
  · split
    · exact .refl s
    · exact raiseDue_keeps ..
  · exact .refl s

theorem settleDue_keeps (o : Occurrence) (a : ReqAnswer) : Keeps s (settleDue o a s) := by
  unfold settleDue
  refine .trans ?_ (raiseDue_keeps ..)
  have h : Keeps s (if (dueOf a).1 = .deferred then defer o s else s) := by
    split
    · exact defer_keeps ..
    · exact .refl s
  generalize (if (dueOf a).1 = .deferred then defer o s else s) = u at h
  refine h.trans ?_
  split
  · exact setScu_keeps ..
  · exact .refl _

theorem actOn_keeps (o : Occurrence) (f : Option FrameNum) : Keeps s (actOn o f s) := by
  unfold actOn; split
  · exact .refl s
  · exact (request_keeps ..).trans (settleDue_keeps ..)

theorem offerDeferred_keeps : Keeps s (offerDeferred s) := by
  unfold offerDeferred; split
  · exact .refl s
  · exact (setScu_keeps ..).trans (actOn_keeps ..)

theorem discardDeferred_keeps : Keeps s (discardDeferred s) := by
  unfold discardDeferred; split
  · exact .refl s
  · exact (setScu_keeps ..).trans (raiseDue_keeps ..)

theorem tellActive_keeps (p : Slot) : Keeps s (tellActive p s) := (setMon_keeps ..).trans (offerDeferred_keeps _)

theorem tellStarted_keeps (c : Cause) : Keeps s (tellStarted c s) := setMon_keeps ..
theorem tellLeft_keeps : Keeps s (tellLeft s) := setMon_keeps ..

theorem tellStopped_keeps : Keeps s (tellStopped s) := (setMon_keeps ..).trans (discardDeferred_keeps _)

/-! ## Contactors -/

theorem moveRequest_keeps (c : ContactorIx) (p : Position) : Keeps s (moveRequest c p s).1 := by
  unfold moveRequest; split
  · exact .refl s
  · split
    · exact .refl s
    · split
      · exact .refl s
      · split
        · exact .refl s
        · split
          · exact (setContactor_keeps ..).trans (raise_keeps ..)
          · exact setContactor_keeps ..

theorem takeReading_keeps (c : ContactorIx) (e : Contactor) : Keeps s (takeReading c e s).1 := by
  have h : Keeps s (enterDisagree c e s).1 := (setContactor_keeps ..).trans (raise_keeps ..)
  unfold takeReading
  cases e.state <;> dsimp only
  case opened => split <;> first | exact .refl s | exact h
  case closed => split <;> first | exact .refl s | exact h
  case toOpen n =>
    split
    · exact (setContactor_keeps ..).trans (raise_keeps ..)
    · split <;> first | exact .refl s | exact h
  case toClosed n =>
    split
    · exact (setContactor_keeps ..).trans (raise_keeps ..)
    · split <;> first | exact .refl s | exact h
  case stuck => split <;> first | exact .refl s | exact h
  case disagree =>
    split
    · exact (setContactor_keeps ..).trans (raise_keeps ..)
    · exact .refl s

theorem replaceContactors_keeps (w : Nat → Word) : Keeps s (replaceContactors w s) := by
  unfold replaceContactors
  refine (setCtu_keeps s _).trans (Keeps.foldl _ (fun t c => ?_) _ _)
  split
  · split
    · exact raise_keeps ..
    · exact .refl t
  · exact .refl t

theorem replaceSchedule_keeps (w : Nat → Word) : Keeps s (replaceSchedule w s) := by
  have h : ∀ (o : Option Occurrence) (t : State), Keeps t (discardForTable o t) := by
    intro o t; unfold discardForTable; split
    · exact raiseDue_keeps ..
    · exact .refl t
  exact ((h ..).trans (h ..)).trans (setScu_keeps ..)

/-! ## Transitions -/

theorem noteAtRest_keeps (h : HaltContext) : Keeps s (noteAtRest h s) := (setArray_keeps ..).trans (raise_keeps ..)

theorem halt_keeps (r : HaltReason) (u : HaltSubject) : Keeps s (halt r u s) := by
  unfold halt; split
  · exact .refl s
  · refine .trans ?_ (tellStopped_keeps _)
    have h : ∀ (c : HaltContext) (t : State), Keeps t (restAtEntry c t) := by
      intro c t; unfold restAtEntry; split
      · exact noteAtRest_keeps ..
      · exact .refl t
    refine .trans ?_ (h _ _)
    refine .trans ?_ (raise_keeps ..)
    refine .trans ?_ (setArray_keeps ..)
    refine .trans ?_ (setHistory_keeps ..)
    refine .trans ?_ (setDsy_keeps ..)
    exact (withdraw_keeps ..).trans (setGuard_keeps ..)

theorem takeDrift_keeps (c : ContactorIx) : Keeps s (takeDrift c s) := by
  unfold takeDrift; split
  · exact (setDsy_keeps ..).trans (halt_keeps ..)
  · exact .refl s

theorem startRampUp_keeps (c : TxContext) : Keeps s (startRampUp c s) := by
  unfold startRampUp; split
  · exact (setArray_keeps ..).trans (halt_keeps ..)
  · exact (setArray_keeps ..).trans (setDsy_keeps ..)

theorem enterReadyUp_keeps (c : TxContext) (g : Nat) : Keeps s (enterReadyUp c g s) :=
  (setArray_keeps ..).trans (raise_keeps ..)

theorem afterSettle_keeps (c : TxContext) : Keeps s (afterSettle c s) := by
  unfold afterSettle; split
  · exact enterReadyUp_keeps ..
  · exact startRampUp_keeps ..

theorem enterSettle_keeps (c : TxContext) : Keeps s (enterSettle c s) := by
  unfold enterSettle; split
  · exact (setArray_keeps ..).trans (afterSettle_keeps ..)
  · exact setArray_keeps ..

theorem leaveSwitching_keeps (c : TxContext) : Keeps s (leaveSwitching c s) := by
  unfold leaveSwitching
  refine .trans ?_ (Keeps.foldl _ (fun t k => takeDrift_keeps t k) _ _)
  refine (setGuard_keeps s (some c.target)).trans ?_
  split
  · exact enterSettle_keeps ..
  · exact afterSettle_keeps ..

theorem judgeSwitching_keeps : Keeps s (judgeSwitching s) := by
  unfold judgeSwitching; split
  · split
    · exact leaveSwitching_keeps ..
    · exact .refl s
  all_goals exact .refl s

theorem giveMoves_keeps (rs : List (ContactorIx × Position)) (c : TxContext) : Keeps s (giveMoves rs c s).2.1 := by
  induction rs generalizing c s with
  | nil => exact .refl s
  | cons r rs ih =>
    unfold giveMoves; split
    · exact ih ..
    · split
      · exact ih ..
      · split
        · exact ih ..
        · split
          · exact (moveRequest_keeps ..).trans (ih ..)
          · exact (moveRequest_keeps ..).trans (ih ..)
          · exact .refl s
          · exact ih ..

theorem enterSwitching_keeps (c : TxContext) : Keeps s (enterSwitching c s) := by
  unfold enterSwitching
  have h := (giveMoves_keeps s (recRequirements (s.recordOf c.target)) { c with awaited := 0, moved := false }).trans
    (setArray_keeps _ (.switching (giveMoves (recRequirements (s.recordOf c.target)) { c with awaited := 0, moved := false } s).1))
  dsimp only
  split
  · exact h.trans (halt_keeps ..)
  · exact h.trans (judgeSwitching_keeps _)

theorem enterRampDown_keeps (c : TxContext) : Keeps s (enterRampDown c s) := by
  unfold enterRampDown
  have h := (setArray_keeps s (.rampDown c)).trans (setDsy_keeps _ (s.dsy.rampDownAll c.downLen c.blend))
  dsimp only
  split
  · exact h.trans (enterSwitching_keeps ..)
  · exact h

theorem launch_keeps (c : TxContext) (f : FrameNum) : Keeps s (launch c f s) := by
  unfold launch
  refine .trans ?_ (tellStarted_keeps ..)
  refine .trans ?_ (raise_keeps ..)
  refine .trans ?_ (enterRampDown_keeps ..)
  exact (setTxe_keeps ..).trans (setGuard_keeps ..)

theorem startArmed_keeps (a : Armed) (f : FrameNum) : Keeps s (startArmed a f s) := by
  unfold startArmed
  refine .trans ?_ (launch_keeps ..)
  refine (setArmed_keeps s none).trans ?_
  unfold abandonHalted
  split
  · exact closeRecord_keeps ..
  all_goals exact .refl _

theorem complete_keeps (c : TxContext) : Keeps s (complete c s) := by
  unfold complete
  refine .trans ?_ (tellActive_keeps ..)
  have h : ∀ t : State, Keeps t (raiseCompleted c.target t) := by
    intro t; unfold raiseCompleted; split
    · exact .refl t
    · exact enter_keeps ..
  refine .trans ?_ (h _)
  refine .trans ?_ (setDsy_keeps ..)
  exact (setArray_keeps ..).trans (closeRecord_keeps ..)

theorem takeRampEnds_keeps (l : List (TowerIx × RampEnd)) : Keeps s (takeRampEnds l s) := by
  unfold takeRampEnds; split
  · dsimp only
    split
    · exact complete_keeps ..
    · exact setArray_keeps ..
  all_goals exact .refl s

theorem enterMuted_keeps (c : MutedCause) (r : Option Slot) : Keeps s (enterMuted c r s) :=
  ((setArray_keeps ..).trans (raise_keeps ..)).trans (tellStopped_keeps _)

theorem takeAtRest_keeps : Keeps s (takeAtRest s) := by
  unfold takeAtRest; split
  · split
    · exact enterSwitching_keeps ..
    · exact .refl s
  · split
    · exact enterMuted_keeps ..
    · exact .refl s
  · split
    · exact noteAtRest_keeps ..
    · exact .refl s
  all_goals exact .refl s

theorem frameEvent_keeps (n : FrameNum) (b : Bool) : Keeps s (frameEvent n b s) := by
  unfold frameEvent
  refine (setTxe_keeps s { s.txe with frame := some n }).trans ?_
  dsimp only
  split
  · unfold examineArmed
    split
    · exact withdraw_keeps ..
    · split
      · exact startArmed_keeps ..
      · split
        · exact .refl _
        · exact withdraw_keeps ..
  · split
    · unfold examineGo
      split
      · exact startRampUp_keeps ..
      · split
        · exact .refl _
        · exact enterReadyUp_keeps ..
    all_goals exact .refl _

theorem writeFrames_keeps (f : FrameSource) : Keeps s (writeFrames f s) := by
  unfold writeFrames raiseClips
  refine (setDsy_keeps s _).trans (Keeps.foldl _ (fun t k => ?_) _ _)
  split
  · exact raise_keeps ..
  · exact .refl t

theorem ringFrame_keeps (f : FrameSource) (b : Bool) : Keeps s (ringFrame f b s) :=
  (((frameEvent_keeps ..).trans (writeFrames_keeps ..)).trans (takeAtRest_keeps _)).trans (takeRampEnds_keeps ..)

theorem takeReport_keeps (c : ContactorIx) (r : CtuReport) : Keeps s (takeReport c r s) := by
  have h : Keeps s (unawait c s) := by
    unfold unawait; split
    · exact setArray_keeps ..
    all_goals exact .refl s
  unfold takeReport; split
  · exact .refl s
  · exact h.trans (judgeSwitching_keeps _)
  · exact h.trans (judgeSwitching_keeps _)
  · split
    · exact takeDrift_keeps ..
    · exact judgeSwitching_keeps _

theorem takeStuck_keeps (c : ContactorIx) : Keeps s (takeStuck c s) := by
  unfold takeStuck; split
  · exact halt_keeps ..
  all_goals exact .refl s

theorem takeCabinetLoss_keeps (t : TowerIx) : Keeps s (takeCabinetLoss t s) := by
  unfold takeCabinetLoss; split
  · split
    · exact halt_keeps ..
    · exact .refl s
  all_goals exact .refl s

theorem takeLost_keeps : Keeps s (takeLost s) := by
  unfold takeLost; split
  · exact ((withdraw_keeps ..).trans (setGuard_keeps ..)).trans (enterMuted_keeps ..)
  all_goals first | exact halt_keeps .. | exact enterMuted_keeps .. | exact .refl s

theorem takeRegain_keeps : Keeps s (takeRegain s) := by
  unfold takeRegain; split
  · exact (setArray_keeps ..).trans (launch_keeps ..)
  all_goals exact .refl s

theorem takeInterlock_keeps : Keeps s (takeInterlock s) := by
  unfold takeInterlock
  refine (withdraw_keeps s .interlock).trans ?_
  dsimp only
  split
  all_goals first
    | exact halt_keeps ..
    | exact (setGuard_keeps ..).trans (enterMuted_keeps ..)
    | exact enterMuted_keeps ..
    | exact setArray_keeps ..

theorem muteTowers_keeps (len : Nat) : Keeps s (muteTowers len s) := by
  unfold muteTowers
  refine (setDsy_keeps s (s.dsy.rampDownAll len 0)).trans ?_
  dsimp only
  split
  · exact enterMuted_keeps ..
  · exact (setArray_keeps ..).trans (tellLeft_keeps _)

theorem muteArray_keeps (len : Nat) : Keeps s (muteArray len s) := by
  have h1 := (setGuard_keeps s none).trans (muteTowers_keeps _ len)
  have h2 := ((closeRecord_keeps s .muted s.txe.now).trans (setGuard_keeps _ none)).trans (muteTowers_keeps _ len)
  have h3 := (closeRecord_keeps s .muted s.txe.now).trans (muteTowers_keeps _ len)
  unfold muteArray
  cases s.txe.array <;> dsimp only
  case unset => exact .refl s
  case muting => exact .refl s
  case muted => exact setArray_keeps ..
  case active => exact h1
  case halted => exact h3
  all_goals exact h2

/-! ## Schedule and monitor -/

theorem takeOccurrence_keeps (o : Occurrence) : Keeps s (takeOccurrence o s) := by
  unfold takeOccurrence; split
  · unfold holdDue
    refine .trans ?_ (raiseDue_keeps ..)
    refine .trans ?_ (setScu_keeps ..)
    split
    · exact raiseDue_keeps ..
    · exact .refl s
  · exact actOn_keeps ..

theorem fallDue_keeps (os : List Occurrence) : Keeps s (fallDue os s) := by
  induction os generalizing s with
  | nil => exact .refl s
  | cons o os ih =>
    cases os with
    | nil => exact takeOccurrence_keeps ..
    | cons p ps => exact (raiseDue_keeps ..).trans (ih _)

theorem takeTime_keeps (b : TimeBody) : Keeps s (takeTime b s) := by
  have h : ∀ d t n d' t', Keeps s (crossClock d t n d' t' s) := by
    intro d t n d' t'
    unfold crossClock
    have h1 := setScu_keeps s (s.scu.setClock d' t')
    have h2 : Keeps s (if n = 2 then raiseClockSet d' t' n (s.setScu (s.scu.setClock d' t'))
        else s.setScu (s.scu.setClock d' t')) := by
      split
      · exact h1.trans (raise_keeps ..)
      · exact h1
    dsimp only
    by_cases ha : d' = d ∧ t' = t
    · rw [if_pos ha]; exact h2
    · rw [if_neg ha]
      by_cases hb : isForward d t d' t' = true
      · rw [if_pos hb]; exact h2.trans (fallDue_keeps ..)
      · rw [if_neg hb]; exact h1.trans (raise_keeps ..)
  unfold takeTime; split
  · split
    · exact (setScu_keeps ..).trans (raise_keeps ..)
    all_goals exact h ..
  · exact raise_keeps ..

theorem holdOn_keeps : Keeps s (holdOn s) := by
  unfold holdOn; split
  · exact .refl s
  · split
    · exact setScu_keeps ..
    · exact (setScu_keeps ..).trans (raiseDue_keeps ..)

theorem holdOff_keeps (b : Bool) : Keeps s (holdOff b s) := by
  unfold holdOff; split
  · split
    · exact setScu_keeps ..
    · dsimp only
      split
      · exact (setScu_keeps ..).trans (actOn_keeps ..)
      · exact (setScu_keeps ..).trans (raiseDue_keeps ..)
  · exact .refl s

theorem setStatus_keeps (t : TowerIx) (x : Tolerance) (n : Nat) : Keeps s (setStatus t x n s) := setMon_keeps ..

theorem takeFaultAction_keeps (w : Nat → Word) : Keeps s (takeFaultAction w s).1 := by
  unfold takeFaultAction; split
  · exact .refl s
  · split
    · exact .refl s
    · exact (request_keeps ..).trans (setMon_keeps ..)

theorem declareFault_keeps (w : Nat → Word) (t : TowerIx) (r : Nat) (m : Int) (q : BitVec 8) :
    Keeps s (declareFault w t r m q s) :=
  ((setStatus_keeps ..).trans (takeFaultAction_keeps ..)).trans (raise_keeps ..)

/-- A conditional keeps the others when both branches do. -/
theorem Keeps.ite {s t u : State} {p : Prop} [Decidable p] (h : Keeps s t) (k : Keeps s u) : Keeps s (if p then t else u) := by
  split
  · exact h
  · exact k

theorem judgeTower_keeps (w : Nat → Word) (t : TowerIx) (r : Nat) (m : Int) (q : BitVec 8) :
    Keeps s (judgeTower w t r m q s) := by
  unfold judgeTower
  dsimp only
  refine Keeps.ite (Keeps.ite ?_ ?_) (Keeps.ite ?_ (Keeps.ite ?_ ?_))
  · exact (setStatus_keeps ..).trans (raise_keeps ..)
  · exact setStatus_keeps ..
  · exact .refl s
  · exact declareFault_keeps ..
  · exact setStatus_keeps ..

/-! ## RIF after a sample frame -/

/-- What the entry to GOOD does to RIF: flag and count clear (R156). -/
theorem enterGood_rif (s : State) : (enterGood s).rif = { s.rif with lossSinceGood := false, lossCount := 0 } := by
  unfold enterGood
  split
  next h => simp [(takeRegain_keeps _).rif]
  next h => simp_all

theorem handValid_rif (f : Sample) (s : State) : (handValid f s).rif = s.rif := (ringFrame_keeps ..).rif
theorem handHeld_rif (n : Nat) (s : State) : (handHeld n s).rif = s.rif := (ringFrame_keeps ..).rif

/-- RIF after a sample frame: what it took, and at the entry to GOOD the flag and the count clear (R154 to R157). -/
theorem receiveSample_rif (rx : Rx) (s : State) : (receiveSample rx s).rif =
    match parseSample rx with
    | some f =>
      let r := s.rif.takeValid f.number rx
      if s.rif.recv ≠ .good ∧ r.recv = .good then { r with lossSinceGood := false, lossCount := 0 } else r
    | none => s.rif.takeFailed rx := by
  unfold receiveSample
  cases parseSample rx with
  | some f =>
    simp only [receiveValid, State.setRif_rif]
    have handed : ∀ (p : Prop) [Decidable p] (x : State), (if p then x else handValid f x).rif = x.rif := by
      intro p _ x
      split
      · rfl
      · exact handValid_rif f x
    refine (handed _ _).trans ?_
    split
    next h => exact (congrArg State.rif (if_pos h)).trans (enterGood_rif _)
    next h => exact congrArg State.rif (if_neg h)
  | none =>
    simp only [receiveFailed]
    split
    · rfl
    · rw [handHeld_rif]; rfl

end Sys2Proof.Machine
end

