-- ==== Sys2Proof/Laws/Engine.lean ====
section
/-! SUPPORT. What a running transition can become: every operation from RAMP_DOWN on leaves its cause, source, target, mode,
joint flag and ramp-up length as they were, in a later phase or in the halt context. -/
namespace Sys2Proof.Machine

/-- Two contexts of one transition. -/
structure TxContext.Same (c d : TxContext) : Prop where
  cause  : d.cause = c.cause
  source : d.source = c.source
  target : d.target = c.target
  mode   : d.mode = c.mode
  joint  : d.joint = c.joint
  down   : d.downLen = c.downLen
  up     : d.upLen = c.upLen
  blend  : d.blend = c.blend

theorem TxContext.Same.refl (c : TxContext) : c.Same c := ⟨rfl, rfl, rfl, rfl, rfl, rfl, rfl, rfl⟩

/-- A halt context of a transition. -/
structure TxContext.Halts (c : TxContext) (h : HaltContext) : Prop where
  cause  : h.cause = c.cause
  source : h.source = c.source
  target : h.target = c.target
  mode   : h.mode = c.mode
  joint  : h.joint = c.joint
  up     : h.upLen = c.upLen

/-- The array is in a phase of the transition of c past RAMP_DOWN, or halted out of it. -/
def Runs (c : TxContext) (a : ArrayState) : Prop :=
  (∃ d, a.context = some d ∧ c.Same d ∧ ∀ x, a ≠ .rampDown x) ∨ ∃ h, a = .halted h ∧ c.Halts h

/-- The history keeps its records; only the halt count of an OPEN newest one may grow. -/
def HistoryKept (s t : List HistRecord) : Prop :=
  ∀ r rs, s = r :: rs → r.outcome = .opened → r.endFrame = none → ∃ n, t = { r with halts := n } :: rs

theorem HistoryKept.refl (s : List HistRecord) : HistoryKept s s := fun r _ h _ _ => ⟨r.halts, h⟩

theorem HistoryKept.trans {s t u : List HistRecord} (h : HistoryKept s t) (k : HistoryKept t u) : HistoryKept s u := by
  intro r rs hs ho he
  obtain ⟨n, hn⟩ := h r rs hs ho he
  obtain ⟨m, hm⟩ := k { r with halts := n } rs hn ho he
  exact ⟨m, hm⟩

theorem countHalt_kept (s : List HistRecord) : HistoryKept s (countHalt s) := by
  intro r rs hs ho he
  refine ⟨min 255 (r.halts + 1), ?_⟩
  subst hs
  cases r
  simp_all [countHalt]

/-- What an operation of a running transition keeps of the engine. -/
structure Goes (c : TxContext) (s t : State) : Prop where
  runs    : Runs c t.txe.array
  armed   : s.txe.armed = none → t.txe.armed = none
  seq     : t.txe.seq = s.txe.seq
  frame   : t.txe.frame = s.txe.frame
  history : HistoryKept s.txe.history t.txe.history

theorem Goes.trans {c d : TxContext} {s t u : State} (h : Goes c s t) (k : Goes d t u) : Goes d s u :=
  ⟨k.runs, fun x => k.armed (h.armed x), k.seq.trans h.seq, k.frame.trans h.frame, h.history.trans k.history⟩

/-- An operation that leaves TXE alone before or after. -/
theorem Goes.after {c : TxContext} {s t u : State} (h : t.txe = s.txe) (k : Goes c t u) : Goes c s u :=
  ⟨k.runs, fun x => k.armed (by rw [h]; exact x), by rw [k.seq, h], by rw [k.frame, h], by rw [← h]; exact k.history⟩

theorem Goes.before {c : TxContext} {s t u : State} (k : Goes c s t) (h : u.txe = t.txe) : Goes c s u :=
  ⟨by rw [h]; exact k.runs, by rw [h]; exact k.armed, by rw [h]; exact k.seq, by rw [h]; exact k.frame,
   by rw [h]; exact k.history⟩

/-- Before a change of the array state only. -/
theorem Goes.afterArray {c : TxContext} {s u : State} {a : ArrayState} (k : Goes c (s.setArray a) u) : Goes c s u :=
  ⟨k.runs, k.armed, k.seq, k.frame, k.history⟩

theorem goes_set {c d : TxContext} (s : State) (a : ArrayState) (h : a.context = some d) (hs : c.Same d)
    (hr : ∀ x, a ≠ .rampDown x) : Goes c s (s.setArray a) :=
  ⟨.inl ⟨d, h, hs, hr⟩, id, rfl, rfl, .refl _⟩

variable (s : State)

@[simp] theorem tellStopped_txe : (tellStopped s).txe = s.txe := by
  unfold tellStopped discardDeferred; split <;> rfl

@[simp] theorem restAtEntry_armed (h : HaltContext) : (restAtEntry h s).txe.armed = s.txe.armed := by
  unfold restAtEntry noteAtRest; split <;> rfl
@[simp] theorem restAtEntry_seq (h : HaltContext) : (restAtEntry h s).txe.seq = s.txe.seq := by
  unfold restAtEntry noteAtRest; split <;> rfl
@[simp] theorem restAtEntry_frame (h : HaltContext) : (restAtEntry h s).txe.frame = s.txe.frame := by
  unfold restAtEntry noteAtRest; split <;> rfl
@[simp] theorem restAtEntry_history (h : HaltContext) : (restAtEntry h s).txe.history = s.txe.history := by
  unfold restAtEntry noteAtRest; split <;> rfl

/-- The state at the entry to HALTED stays HALTED with its context. -/
theorem restAtEntry_array {h : HaltContext} (hs : s.txe.array = .halted h) :
    ∃ b, (restAtEntry h s).txe.array = .halted { h with restNoticed := b } := by
  unfold restAtEntry noteAtRest; split
  · exact ⟨true, rfl⟩
  · exact ⟨h.restNoticed, hs⟩

@[simp] theorem withdraw_armed (r : WithdrawReason) : (withdraw r s).txe.armed = none := by
  unfold withdraw; split
  · assumption
  · rfl
theorem withdraw_txe (r : WithdrawReason) : (withdraw r s).txe = { s.txe with armed := none } := by
  unfold withdraw; split
  · rename_i h
    cases hx : s.txe; simp_all
  · rfl

/-- A halt from a phase keeps the transition in the halt context. -/
theorem halt_goes {c d : TxContext} (r : HaltReason) (u : HaltSubject) (h : s.txe.array.context = some d) (hs : c.Same d) :
    Goes c s (halt r u s) := by
  obtain ⟨st, hv⟩ : ∃ st, haltView s = some (viewOf st d) := by
    unfold haltView
    cases ha : s.txe.array <;> simp_all [ArrayState.context] <;> exact ⟨_, rfl⟩
  unfold halt
  rw [hv]
  dsimp only
  refine ⟨.inr ?_, fun _ => ?_, ?_, ?_, ?_⟩
  · rw [tellStopped_txe]
    obtain ⟨b, hb⟩ := restAtEntry_array (((((setGuard none (withdraw .halt s)).setDsy
      (haltOrders r (setGuard none (withdraw .halt s)).dsy)).setHistory (countHalt (withdraw .halt s).txe.history)).setArray
        (.halted (formHalt r u (viewOf st d) (((setGuard none (withdraw .halt s)).setDsy
          (haltOrders r (setGuard none (withdraw .halt s)).dsy)).setHistory
            (countHalt (withdraw .halt s).txe.history)).txe.newestSeq))).raise .txHalted (subjectOf (viewOf st d).target.val)
        [word r.code, word (viewOf st d).step.code, word u.byte,
          (formHalt r u (viewOf st d) (((setGuard none (withdraw .halt s)).setDsy
          (haltOrders r (setGuard none (withdraw .halt s)).dsy)).setHistory
            (countHalt (withdraw .halt s).txe.history)).txe.newestSeq).seq]) rfl
    exact ⟨_, hb, hs.cause, hs.source, hs.target, hs.mode, hs.joint, hs.up⟩
  · simp
  · simp [withdraw_txe]
  · simp [withdraw_txe]
  · simpa [withdraw_txe] using countHalt_kept s.txe.history

theorem startRampUp_goes {c d : TxContext} (hs : c.Same d) : Goes c s (startRampUp d s) := by
  unfold startRampUp; split
  · exact Goes.afterArray (halt_goes _ _ _ rfl hs)
  · exact (goes_set s _ rfl hs (by simp)).before rfl

theorem afterSettle_goes {c d : TxContext} (hs : c.Same d) : Goes c s (afterSettle d s) := by
  unfold afterSettle; split
  · exact (goes_set s _ rfl hs (by simp)).before rfl
  · exact startRampUp_goes s hs

theorem enterSettle_goes {c d : TxContext} (hs : c.Same d) : Goes c s (enterSettle d s) := by
  unfold enterSettle; split
  · exact Goes.afterArray (afterSettle_goes _ hs)
  · exact goes_set s _ rfl hs (by simp)

/-- A drift report taken in a phase, or after a halt, keeps the transition. -/
theorem takeDrift_goes {c : TxContext} (k : ContactorIx) (h : Runs c s.txe.array) : Goes c s (takeDrift k s) := by
  unfold takeDrift; split
  · rename_i hd
    rcases h with ⟨d, h1, h2, _⟩ | ⟨x, h1, _⟩
    · exact Goes.after (t := s.setDsy (s.dsy.forceZero (assocTowers s k))) rfl (halt_goes _ _ _ h1 h2)
    · rw [h1] at hd; cases hd
  · exact ⟨h, id, rfl, rfl, .refl _⟩

theorem takeDrifts_goes {c : TxContext} (l : List ContactorIx) {t : State} (h : Goes c s t) :
    Goes c s (l.foldl (fun s k => takeDrift k s) t) := by
  induction l generalizing t with
  | nil => exact h
  | cons k l ih => exact ih (h.trans (takeDrift_goes t k h.runs))

theorem leaveSwitching_goes {c d : TxContext} (hs : c.Same d) : Goes c s (leaveSwitching d s) := by
  unfold leaveSwitching
  refine takeDrifts_goes s _ ?_
  refine Goes.after (t := setGuard (some d.target) s) rfl ?_
  split
  · exact enterSettle_goes _ hs
  · exact afterSettle_goes _ hs

theorem judgeSwitching_goes {c d : TxContext} (h : s.txe.array = .switching d) (hs : c.Same d) :
    Goes c s (judgeSwitching s) := by
  unfold judgeSwitching; rw [h]; dsimp only
  split
  · exact leaveSwitching_goes s hs
  · exact ⟨.inl ⟨d, by rw [h]; rfl, hs, by simp [h]⟩, id, rfl, rfl, .refl _⟩

@[simp] theorem moveRequest_txe (c : ContactorIx) (p : Position) : (moveRequest c p s).1.txe = s.txe := by
  unfold moveRequest; repeat' split
  all_goals rfl

@[simp] theorem moveRequest_dsy (c : ContactorIx) (p : Position) : (moveRequest c p s).1.dsy = s.dsy := by
  unfold moveRequest; repeat' split
  all_goals rfl

@[simp] theorem moveRequest_scu (c : ContactorIx) (p : Position) : (moveRequest c p s).1.scu = s.scu := by
  unfold moveRequest; repeat' split
  all_goals rfl

@[simp] theorem moveRequest_mon (c : ContactorIx) (p : Position) : (moveRequest c p s).1.mon = s.mon := by
  unfold moveRequest; repeat' split
  all_goals rfl

/-- The moves of SWITCHING leave every block but CTU and CMU alone, and the transition as it was. -/
theorem giveMoves_spec (rs : List (ContactorIx × Position)) (c : TxContext) :
    (giveMoves rs c s).2.1.txe = s.txe ∧ (giveMoves rs c s).2.1.dsy = s.dsy ∧ (giveMoves rs c s).2.1.mon = s.mon
    ∧ (giveMoves rs c s).2.1.scu = s.scu ∧ c.Same (giveMoves rs c s).1 := by
  induction rs generalizing c s with
  | nil => exact ⟨rfl, rfl, rfl, rfl, .refl c⟩
  | cons r rs ih =>
    have same : ∀ {a b d : TxContext}, a.Same b → b.Same d → a.Same d := fun h k =>
      ⟨k.cause.trans h.cause, k.source.trans h.source, k.target.trans h.target, k.mode.trans h.mode, k.joint.trans h.joint,
       k.down.trans h.down, k.up.trans h.up, k.blend.trans h.blend⟩
    unfold giveMoves; split
    · exact ih s c
    · split
      · exact ih s c
      · split
        · obtain ⟨h1, h2, h3, h4, h5⟩ := ih s (c.await r.1)
          exact ⟨h1, h2, h3, h4, same (a := c) (b := c.await r.1) ⟨rfl, rfl, rfl, rfl, rfl, rfl, rfl, rfl⟩ h5⟩
        · split
          · obtain ⟨h1, h2, h3, h4, h5⟩ := ih (moveRequest r.1 r.2 s).1 (c.await r.1)
            exact ⟨by simpa using h1, by simpa using h2, by simpa using h3, by simpa using h4,
              same (a := c) (b := c.await r.1) ⟨rfl, rfl, rfl, rfl, rfl, rfl, rfl, rfl⟩ h5⟩
          · rename_i b _
            obtain ⟨h1, h2, h3, h4, h5⟩ := ih (moveRequest r.1 r.2 s).1 { c with moved := c.moved || b }
            exact ⟨by simpa using h1, by simpa using h2, by simpa using h3, by simpa using h4,
              same (a := c) (b := { c with moved := c.moved || b }) ⟨rfl, rfl, rfl, rfl, rfl, rfl, rfl, rfl⟩ h5⟩
          · exact ⟨rfl, rfl, rfl, rfl, .refl c⟩
          · exact ih s c

theorem enterSwitching_goes {c d : TxContext} (hs : c.Same d) : Goes c s (enterSwitching d s) := by
  obtain ⟨h1, _, _, _, h5⟩ := giveMoves_spec s (recRequirements (s.recordOf d.target)) { d with awaited := 0, moved := false }
  have hc : c.Same (giveMoves (recRequirements (s.recordOf d.target)) { d with awaited := 0, moved := false } s).1 :=
    ⟨h5.cause.trans hs.cause, h5.source.trans hs.source, h5.target.trans hs.target, h5.mode.trans hs.mode,
     h5.joint.trans hs.joint, h5.down.trans hs.down, h5.up.trans hs.up, h5.blend.trans hs.blend⟩
  unfold enterSwitching
  generalize giveMoves (recRequirements (s.recordOf d.target)) { d with awaited := 0, moved := false } s = g at h1 hc
  obtain ⟨e, u, b⟩ := g
  dsimp only at h1 hc ⊢
  refine Goes.after h1 ?_
  cases b with
  | none => exact Goes.afterArray (a := .switching e) (judgeSwitching_goes _ rfl hc)
  | some k => exact Goes.afterArray (a := .switching e) (halt_goes _ _ _ rfl hc)

/-- RAMP_DOWN is stayed in, with its orders given, or passed through at once. -/
theorem enterRampDown_cases (c : TxContext) :
    (enterRampDown c s = (s.setArray (.rampDown c)).setDsy (s.dsy.rampDownAll c.downLen c.blend)
      ∧ (s.dsy.rampDownAll c.downLen c.blend).restIn (~~~c.blend) = false)
    ∨ (Goes c s (enterRampDown c s) ∧ (s.dsy.rampDownAll c.downLen c.blend).restIn (~~~c.blend) = true) := by
  unfold enterRampDown
  dsimp only
  split
  · rename_i h
    refine .inr ⟨Goes.afterArray (a := .rampDown c) (Goes.after
      (s := s.setArray (.rampDown c)) (t := (s.setArray (.rampDown c)).setDsy (s.dsy.rampDownAll c.downLen c.blend)) rfl
      (enterSwitching_goes _ (.refl c))), h⟩
  · rename_i h
    exact .inl ⟨rfl, by simpa using h⟩

/-! ## Drive orders given to many towers -/

@[simp] theorem orderZero_local (d : Dsy) (len : Nat) (t : TowerIx) : (d.orderZero len t).localPace = d.localPace := rfl

/-- Ramp orders with end ZERO to every tower outside `skip` that is not in REST. -/
theorem rampDownAll_spec (d : Dsy) (len : Nat) (skip : TowerSet) :
    d.rampDownAll len skip = { d with towers := (d.rampDownAll len skip).towers }
    ∧ ∀ k : TowerIx, (d.rampDownAll len skip).towers[k] =
        if has skip k = true ∨ d.towers[k].order.isRest = true then d.towers[k]
        else { d.towers[k] with
          order := if d.towers[k].amp = 0 ∨ d.localPace = true then .rest else .ramp (zeroRamp d.towers[k] len) } := by
  have key : ∀ (l : List TowerIx), l.Nodup → ∀ x : Dsy, ∃ v : Vector Tower 8,
      l.foldl (fun d t => if has skip t || d.towers[t].order.isRest then d else d.orderZero len t) x = { x with towers := v }
      ∧ ∀ k : TowerIx, v[k] =
        if k ∈ l then (if has skip k = true ∨ x.towers[k].order.isRest = true then x.towers[k]
          else { x.towers[k] with
            order := if x.towers[k].amp = 0 ∨ x.localPace = true then .rest else .ramp (zeroRamp x.towers[k] len) })
        else x.towers[k] := by
    intro l
    induction l with
    | nil => intro _ x; exact ⟨x.towers, rfl, fun k => by simp only [List.not_mem_nil, if_false]⟩
    | cons t l ih =>
      intro hn x
      obtain ⟨ht, hn⟩ := List.nodup_cons.1 hn
      rw [List.foldl_cons]
      by_cases hc : (has skip t || x.towers[t].order.isRest) = true
      · rw [if_pos hc]
        obtain ⟨v, h1, h2⟩ := ih hn x
        refine ⟨v, h1, fun k => ?_⟩
        rw [h2 k]
        by_cases hk : k = t
        · subst hk
          rw [if_neg ht, if_pos (by simp), if_pos (by simpa using hc)]
        · simp only [List.mem_cons, hk, false_or]
      · rw [if_neg hc]
        obtain ⟨v, h1, h2⟩ := ih hn (x.orderZero len t)
        refine ⟨v, h1.trans (by simp only [Dsy.orderZero]), fun k => ?_⟩
        rw [h2 k]
        have hx : ∀ j : TowerIx, (x.orderZero len t).towers[j] = if j = t then { x.towers[t] with
            order := if x.towers[t].amp = 0 ∨ x.localPace = true then .rest else .ramp (zeroRamp x.towers[t] len) }
            else x.towers[j] := fun j => by simp only [Dsy.orderZero, modifyAt_get]
        by_cases hk : k = t
        · subst hk
          have hq : ¬(has skip k = true ∨ x.towers[k].order.isRest = true) := by simpa using hc
          rw [if_neg ht, hx, if_pos rfl, if_pos (List.mem_cons_self ..), if_neg hq]
        · simp only [List.mem_cons, hk, false_or, hx, if_false, orderZero_local]
  obtain ⟨v, h1, h2⟩ := key allTowers (by decide) d
  have e : d.rampDownAll len skip = { d with towers := v } := h1
  rw [e]
  refine ⟨rfl, fun k => ?_⟩
  have := h2 k
  rw [if_pos (mem_allTowers k)] at this
  exact this

end Sys2Proof.Machine
end

