-- ==== Sys2Proof/Laws/Notices.lean ====
section
/-! SUPPORT. The notices that withdrawing, halting and muting raise, each operation said once as the state it leaves, and what
the firing of an occurrence leaves of the Schedule Unit. -/
namespace Sys2Proof.Machine

@[simp] theorem Cmu.enterAll_nil (u : Cmu) : u.enterAll [] = u := rfl
@[simp] theorem Cmu.enterAll_cons (u : Cmu) (r : Record) (rs : List Record) :
    u.enterAll (r :: rs) = (u.enter r).enterAll rs := rfl
theorem Cmu.enterAll_append (u : Cmu) (xs ys : List Record) : u.enterAll (xs ++ ys) = (u.enterAll xs).enterAll ys :=
  List.foldl_append

theorem withdrawnNotice_none {n : Nat} {s : State} (h : s.txe.armed = none) : withdrawnNotice n s = [] := by
  simp [withdrawnNotice, h]

theorem withdraw_eq (r : WithdrawReason) (s : State) : withdraw r s
    = (s.setTxe { s.txe with armed := none }).setCmu (s.cmu.enterAll (withdrawnNotice r.code s)) := by
  obtain ⟨_, _, _, _, _, _, _, ⟨_, armed, _, _, _⟩, _, _, _, _, _⟩ := s
  cases armed <;> rfl

theorem tellStopped_eq (s : State) : tellStopped s
    = ((s.setMon s.mon.leaveActive).setScu { s.scu with deferred := none }).setCmu
        (s.cmu.enterAll (discardedNotice s)) := by
  obtain ⟨_, _, _, _, _, _, _, _, _, _, _, ⟨_, _, _, deferred, _, _⟩, _⟩ := s
  cases deferred <;> rfl

/-- MUTED entered: the notice MUTED, MON out of ACTIVE, a deferred entry discarded (R99, R108, R132). -/
theorem enterMuted_eq (c : MutedCause) (r : Option Slot) (s : State) : enterMuted c r s
    = (((s.setTxe { s.txe with array := .muted r }).setMon s.mon.leaveActive).setScu { s.scu with deferred := none }).setCmu
        (s.cmu.enterAll (mutedNotice r c.code s :: discardedNotice s)) := by
  unfold enterMuted
  rw [tellStopped_eq]
  cases r <;> rfl

/-- TX_AT_REST at the entry to HALTED: the context says whether it was raised, and the notice is there if it was (R85, R88). -/
theorem restAtEntry_eq (h : HaltContext) (s : State) (harray : s.txe.array = .halted h) (hfresh : h.restNoticed = false) :
    let k := { h with restNoticed := s.dsy.allAtRest }
    restAtEntry h s = (s.setTxe { s.txe with array := .halted k }).setCmu
      (s.cmu.enterAll (if k.restNoticed then [atRestNotice k s] else [])) := by
  unfold restAtEntry
  split
  next hr => simp only [hr]; rfl
  next hr =>
    have hr : s.dsy.allAtRest = false := by simpa using hr
    have hk : { h with restNoticed := s.dsy.allAtRest } = h := by rw [hr, ← hfresh]
    simp only [hk, ← harray]
    rw [if_neg (by simp [hr])]
    rfl

/-- An occurrence that fires is not left standing as the deferred entry (the model's choice: log 38). -/
theorem Scu.fire_deferred (u : Scu) (o : Occurrence) :
    (u.fire o).deferred = if u.deferred = some o then none else u.deferred := rfl

@[simp] theorem Scu.fire_held (u : Scu) (o : Occurrence) : (u.fire o).held = u.held := rfl
@[simp] theorem Scu.fire_hold (u : Scu) (o : Occurrence) : (u.fire o).hold = u.hold := rfl

/-- Only the entry that fires has its last-fired date set (R130). -/
theorem Scu.fire_table (u : Scu) (o : Occurrence) (i : EntryIx) : (u.fire o).table[i]
    = if i = o.entry then u.table[i].map fun e => { e with lastFired := some o.date } else u.table[i] := by
  simp only [Scu.fire, modifyAt_get]
  split
  next h => rw [h]
  next => rfl

end Sys2Proof.Machine
end

