-- ==== Sys2Proof/Laws/Halts.lean ====
section
/-! SUPPORT. What a halt leaves of each block, field by field, and what the at-rest changes touch in HALTED. -/
namespace Sys2Proof.Machine

variable {r : HaltReason} {u : HaltSubject} {v : HaltView} {s : State}

@[simp] theorem withdraw_mon (w : WithdrawReason) (s : State) : (withdraw w s).mon = s.mon := by
  rw [withdraw_eq]; rfl
@[simp] theorem withdraw_scu (w : WithdrawReason) (s : State) : (withdraw w s).scu = s.scu := by
  rw [withdraw_eq]; rfl
@[simp] theorem withdraw_ctu (w : WithdrawReason) (s : State) : (withdraw w s).ctu = s.ctu := by
  rw [withdraw_eq]; rfl
@[simp] theorem restAtEntry_mon (h : HaltContext) (s : State) : (restAtEntry h s).mon = s.mon := by
  unfold restAtEntry noteAtRest; split <;> rfl
@[simp] theorem restAtEntry_scu (h : HaltContext) (s : State) : (restAtEntry h s).scu = s.scu := by
  unfold restAtEntry noteAtRest; split <;> rfl
@[simp] theorem restAtEntry_ctu (h : HaltContext) (s : State) : (restAtEntry h s).ctu = s.ctu := by
  unfold restAtEntry noteAtRest; split <;> rfl

theorem tellStopped_mon (s : State) : (tellStopped s).mon = s.mon.leaveActive := by rw [tellStopped_eq]; rfl
theorem tellStopped_scu (s : State) : (tellStopped s).scu = { s.scu with deferred := none } := by rw [tellStopped_eq]; rfl
theorem tellStopped_ctu (s : State) : (tellStopped s).ctu = s.ctu := by rw [tellStopped_eq]; rfl

/-- A halt makes MON leave ACTIVE (R108). -/
theorem halt_mon (hv : haltView s = some v) : (halt r u s).mon = s.mon.leaveActive := by
  simp [halt, hv, tellStopped_mon, setGuard, State.setHistory, State.setArray]

/-- A halt discards the deferred entry (R132). -/
theorem halt_scu (hv : haltView s = some v) : (halt r u s).scu = { s.scu with deferred := none } := by
  simp [halt, hv, tellStopped_scu, setGuard, State.setHistory, State.setArray]

theorem halt_ctu (hv : haltView s = some v) : (halt r u s).ctu = { s.ctu with guard := none } := by
  simp [halt, hv, tellStopped_ctu, setGuard, State.setHistory, State.setArray]

theorem halt_history (hv : haltView s = some v) : (halt r u s).txe.history = countHalt s.txe.history := by
  simp [halt, hv, setGuard, State.setHistory, State.setArray, withdraw_txe]

theorem haltView_congr {s t : State} (ha : t.txe.array = s.txe.array) (hp : t.pst = s.pst)
    (hh : t.txe.history = s.txe.history) : haltView t = haltView s := by
  unfold haltView State.recordOf Txe.newestCause
  rw [ha, hp, hh]

theorem haltView_phase {c : TxContext} (h : s.txe.array.context = some c) : ∃ st, haltView s = some (viewOf st c) := by
  unfold haltView
  cases ha : s.txe.array <;> simp_all [ArrayState.context] <;> exact ⟨_, rfl⟩

/-- The context of a halt, but for whether TX_AT_REST was raised (R84). -/
theorem halt_array (hv : haltView s = some v) : ∃ b, (halt r u s).txe.array
    = .halted { formHalt r u v s.txe.newestSeq with restNoticed := b } := by
  have hq : (((setGuard none (withdraw .halt s)).setDsy (haltOrders r (setGuard none (withdraw .halt s)).dsy)).setHistory
      (countHalt (withdraw .halt s).txe.history)).txe.newestSeq = s.txe.newestSeq := by
    simp only [Txe.newestSeq, State.setHistory, setGuard, withdraw_txe, State.setTxe_txe, State.setDsy_txe, State.setCtu_txe]
    cases s.txe.history <;> rfl
  unfold halt
  rw [hv]
  dsimp only
  rw [tellStopped_txe]
  obtain ⟨b, hb⟩ := restAtEntry_array (h := formHalt r u v s.txe.newestSeq)
    (s := (((((setGuard none (withdraw .halt s)).setDsy (haltOrders r (setGuard none (withdraw .halt s)).dsy)).setHistory
      (countHalt (withdraw .halt s).txe.history)).setArray (.halted (formHalt r u v s.txe.newestSeq))).raise .txHalted
        (subjectOf v.target.val) [word r.code, word v.step.code, word u.byte, s.txe.newestSeq])) rfl
  refine ⟨b, ?_⟩
  rw [← hb]
  simp only [← hq]
  rfl

/-- The at-rest changes in HALTED touch the array's context and the Report Queue alone (R88). -/
theorem takeAtRest_halted {h : HaltContext} (ha : s.txe.array = .halted h) :
    let t := takeAtRest s
    t.mon = s.mon ∧ t.scu = s.scu ∧ t.ctu = s.ctu ∧ t.dsy = s.dsy ∧ t.txe.history = s.txe.history
      ∧ t.txe.frame = s.txe.frame ∧ t.txe.seq = s.txe.seq ∧ t.txe.armed = s.txe.armed
      ∧ ∃ b, t.txe.array = .halted { h with restNoticed := b } := by
  unfold takeAtRest
  rw [ha]
  dsimp only
  split
  · refine ⟨rfl, rfl, rfl, rfl, rfl, rfl, rfl, rfl, true, rfl⟩
  · exact ⟨rfl, rfl, rfl, rfl, rfl, rfl, rfl, rfl, h.restNoticed, ha⟩

end Sys2Proof.Machine
end

