-- ==== Sys2Proof/Laws/Memory.lean ====
section
/-! SUPPORT. Word memory: what it reads after each operation, and that each operation keeps the canonical form. -/
namespace Sys2Proof.Machine

/-- An address below every listed one reads as zero. -/
theorem Mem.read_below (m : Mem) (a : Nat) (h : ∀ c ∈ m, a < c.1) : m.read a = 0 := by
  induction m with
  | nil => rfl
  | cons c m ih =>
    have h1 : c.1 ≠ a := by have := h c (by simp); omega
    simp only [Mem.read, h1, if_false]
    exact ih fun d hd => h d (by simp [hd])

theorem Mem.wf_tail {c : Nat × Word} {m : Mem} (h : Mem.wf (c :: m)) : Mem.wf m :=
  ⟨(List.pairwise_cons.1 h.1).2, fun d hd => h.2 d (by simp [hd])⟩

/-- Every address listed after a write was listed before or is the one written. -/
theorem Mem.mem_write {m : Mem} {a : Nat} {v : Word} {c : Nat × Word} (h : c ∈ m.write a v) : c ∈ m ∨ (c = (a, v) ∧ v ≠ 0) := by
  induction m with
  | nil =>
    simp only [Mem.write] at h
    split at h <;> simp_all
  | cons d m ih =>
    simp only [Mem.write] at h
    split at h
    · split at h
      · exact .inl h
      · rcases List.mem_cons.1 h with h | h
        · exact .inr ⟨h, ‹_›⟩
        · exact .inl h
    · split at h
      · split at h
        · exact .inl (List.mem_cons_of_mem _ h)
        · rcases List.mem_cons.1 h with h | h
          · exact .inr ⟨h, ‹_›⟩
          · exact .inl (List.mem_cons_of_mem _ h)
      · rcases List.mem_cons.1 h with h | h
        · exact .inl (by simp [h])
        · rcases ih h with h | h
          · exact .inl (List.mem_cons_of_mem _ h)
          · exact .inr h

/-- A write keeps the canonical form. -/
theorem Mem.wf_write {m : Mem} (h : m.wf) (a : Nat) (v : Word) : (m.write a v).wf := by
  refine ⟨?_, fun c hc => ?_⟩
  · induction m with
    | nil => simp only [Mem.write]; split <;> simp
    | cons d m ih =>
      have hd := List.pairwise_cons.1 h.1
      simp only [Mem.write]
      split
      · split
        · exact h.1
        · refine List.pairwise_cons.2 ⟨fun c hc => ?_, h.1⟩
          rcases List.mem_cons.1 hc with rfl | hc
          · assumption
          · exact Nat.lt_trans ‹_› (hd.1 c hc)
      · split
        · split
          · exact hd.2
          · exact List.pairwise_cons.2 ⟨fun c hc => by have := hd.1 c hc; simp_all, hd.2⟩
        · refine List.pairwise_cons.2 ⟨fun c hc => ?_, ih (Mem.wf_tail h)⟩
          rcases Mem.mem_write hc with hc | ⟨rfl, -⟩
          · exact hd.1 c hc
          · simp only; omega
  · rcases Mem.mem_write hc with hc | ⟨rfl, hv⟩
    · exact h.2 c hc
    · exact hv

/-- What a memory in canonical form reads after a write. -/
theorem Mem.read_write {m : Mem} (h : m.wf) (a : Nat) (v : Word) (b : Nat) :
    (m.write a v).read b = if b = a then v else m.read b := by
  induction m with
  | nil =>
    simp only [Mem.write]
    by_cases hb : b = a
    · subst hb; split <;> simp [Mem.read, *]
    · have : ¬ a = b := fun e => hb e.symm
      split <;> simp [Mem.read, this]
  | cons d m ih =>
    have hd := List.pairwise_cons.1 h.1
    have ih := ih (Mem.wf_tail h)
    simp only [Mem.write]
    split
    · have hz : Mem.read (d :: m) a = 0 := Mem.read_below _ _ fun c hc => by
        rcases List.mem_cons.1 hc with rfl | hc
        · assumption
        · exact Nat.lt_trans ‹_› (hd.1 c hc)
      split
      · by_cases hb : b = a
        · subst hb; rw [if_pos rfl, hz]; exact (‹v = 0›).symm
        · simp [hb]
      · by_cases hb : b = a
        · subst hb; simp [Mem.read]
        · have hba : ¬ a = b := fun e => hb e.symm
          simp [Mem.read, hb, hba]
    · split
      · rename_i h1 h2
        have hz : Mem.read m a = 0 := Mem.read_below _ _ fun c hc => h2 ▸ hd.1 c hc
        split
        · by_cases hb : b = a
          · subst hb; rw [if_pos rfl, hz]; exact (‹v = 0›).symm
          · have : ¬ d.1 = b := by omega
            simp [Mem.read, hb, this]
        · by_cases hb : b = a
          · subst hb; simp [Mem.read]
          · have h3 : ¬ a = b := fun e => hb e.symm
            have h4 : ¬ d.1 = b := by omega
            simp [Mem.read, hb, h3, h4]
      · by_cases hdb : d.1 = b
        · have : ¬ b = a := by omega
          simp [Mem.read, hdb, this]
        · simp [Mem.read, hdb, ih]

theorem Mem.wf_writeAll {m : Mem} (h : m.wf) (a : Nat) (ws : List Word) : (m.writeAll a ws).wf := by
  induction ws generalizing m a with
  | nil => exact h
  | cons w ws ih => exact ih (Mem.wf_write h a w) (a + 1)

/-- What a memory in canonical form reads after a segment is written. -/
theorem Mem.read_writeAll {m : Mem} (h : m.wf) (a : Nat) (ws : List Word) (b : Nat) :
    (m.writeAll a ws).read b = if a ≤ b ∧ b < a + ws.length then ws.getD (b - a) 0 else m.read b := by
  induction ws generalizing m a with
  | nil => rw [if_neg (by simp only [List.length_nil]; omega)]; rfl
  | cons w ws ih =>
    simp only [Mem.writeAll, List.length_cons, ih (Mem.wf_write h a w) (a + 1), Mem.read_write h]
    by_cases hb : b = a
    · subst hb; rw [if_neg (by omega), if_pos rfl, if_pos (by omega)]; simp
    · by_cases h1 : a + 1 ≤ b
      · have : b - a = (b - (a + 1)) + 1 := by omega
        by_cases h2 : b < a + 1 + ws.length
        · rw [if_pos ⟨h1, h2⟩, if_pos (by omega), this, List.getD_cons_succ]
        · rw [if_neg (by omega), if_neg hb, if_neg (by omega)]
      · rw [if_neg (by omega), if_neg hb, if_neg (by omega)]

theorem Mem.wf_clear {m : Mem} (h : m.wf) (a len : Nat) : (m.clear a len).wf :=
  ⟨h.1.filter _, fun c hc => h.2 c (List.mem_filter.1 hc).1⟩

/-- What a memory reads after a region is set to zero. -/
theorem Mem.read_clear (m : Mem) (a len b : Nat) :
    (m.clear a len).read b = if a ≤ b ∧ b < a + len then 0 else m.read b := by
  induction m with
  | nil => simp [Mem.clear, Mem.read]
  | cons d m ih =>
    have ih : Mem.read (List.filter (fun c => decide (c.1 < a) || decide (a + len ≤ c.1)) m) b = _ := ih
    simp only [Mem.clear, List.filter_cons]
    by_cases hk : (decide (d.1 < a) || decide (a + len ≤ d.1)) = true
    · simp only [hk, if_true]
      by_cases hdb : d.1 = b
      · have : ¬ (a ≤ b ∧ b < a + len) := by simp at hk; omega
        simp [Mem.read, hdb, this]
      · simp only [Mem.read, hdb, if_false, ih]
    · rw [if_neg hk]
      simp only [Bool.or_eq_true, decide_eq_true_eq, not_or, Nat.not_lt, Nat.not_le] at hk
      by_cases hdb : d.1 = b
      · have : a ≤ b ∧ b < a + len := by omega
        simp [ih, this]
      · exact ih.trans (by rw [show Mem.read (d :: m) b = Mem.read m b from if_neg hdb])

theorem Mem.wf_nil : Mem.wf [] := ⟨List.Pairwise.nil, fun _ h => nomatch h⟩

/-- Reset memory has the canonical form. -/
theorem State.reset_store_wf : State.reset.pst.store.wf := Mem.wf_nil

end Sys2Proof.Machine
end

