-- ==== Sys2Proof/Laws/Starts.lean ====
section
/-! SUPPORT. The sets a transition context is formed with, the range tests of a command's parameter words, and the reports that
find TXE with nothing to do. -/
namespace Sys2Proof.Machine

/-! ## The sets of R66 -/

theorem has_foldl_insertIx {α : Type} {n : Nat} (f : α → Fin n) (k : Fin n) :
    ∀ (l : List α) (m : BitVec n), has (l.foldl (fun m r => insertIx m (f r)) m) k = true
      ↔ has m k = true ∨ ∃ r ∈ l, f r = k
  | [], m => by simp
  | r :: l, m => by
    rw [List.foldl_cons, has_foldl_insertIx f k l]
    simp only [has_insertIx, Bool.or_eq_true, decide_eq_true_eq, List.mem_cons, exists_eq_or_imp, or_assoc, eq_comm (a := k)]

theorem has_foldl_or {α : Type} {n : Nat} (f : α → BitVec n) (k : Fin n) :
    ∀ (l : List α) (m : BitVec n), has (l.foldl (fun m r => m ||| f r) m) k = true
      ↔ has m k = true ∨ ∃ r ∈ l, has (f r) k = true
  | [], m => by simp
  | r :: l, m => by
    rw [List.foldl_cons, has_foldl_or f k l]
    simp only [has_or, Bool.or_eq_true, List.mem_cons, exists_eq_or_imp, or_assoc]

/-- A contactor is in the set of target k's list exactly when a requirement of the list names it and satisfies the test. -/
theorem has_reqSet (s : State) (k : Slot) (p : ContactorIx × Position → Bool) (c : ContactorIx) :
    has (reqSet s k p) c = true ↔ ∃ x, (c, x) ∈ recRequirements (s.recordOf k) ∧ p (c, x) = true := by
  unfold reqSet
  rw [has_foldl_insertIx, has_zero]
  simp

theorem unsettledReq_iff (s : State) (r : ContactorIx × Position) :
    unsettledReq s r = true ↔ ∃ e, s.ctu.units[r.1].entry = some e ∧ e.state.standsAt r.2 = false := by
  unfold unsettledReq Ctu.stateOf
  cases s.ctu.units[r.1].entry <;> simp

theorem movingReq_iff (s : State) (r : ContactorIx × Position) :
    movingReq s r = true
      ↔ ∃ e, s.ctu.units[r.1].entry = some e ∧ e.state.standsAt r.2 = false ∧ e.state.travelsTo r.2 = false := by
  unfold movingReq Ctu.stateOf
  cases s.ctu.units[r.1].entry <;> simp

theorem has_switchedTowers (s : State) (k : Slot) (t : TowerIx) :
    has (switchedTowers s k) t = true ↔ ∃ r e, r ∈ recRequirements (s.recordOf k) ∧ s.ctu.units[r.1].entry = some e
      ∧ e.state.standsAt r.2 = false ∧ has e.assoc.towers t = true := by
  unfold switchedTowers
  rw [has_foldl_or]
  simp only [has_zero, Bool.false_eq_true, false_or, List.mem_filter, unsettledReq_iff, assocTowers]
  constructor
  · rintro ⟨r, ⟨h, e, he, hs⟩, ht⟩
    rw [he] at ht
    exact ⟨r, e, h, he, hs, ht⟩
  · rintro ⟨r, e, h, he, hs, ht⟩
    exact ⟨r, ⟨h, e, he, hs⟩, by rw [he]; exact ht⟩

/-- A context formed in s holds the sets of R66 as the contactors stand there. -/
theorem formContext_sets (s : State) (cause : Cause) (source : Option Slot) (k : Slot) (mode : Mode) (joint : Option Nat)
    (down up : Nat) (blend : TowerSet) : SetsOfStart (formContext s cause source k mode joint down up blend) s := by
  refine ⟨fun c => ?_, fun c => ?_, fun t => ?_, rfl, rfl⟩
  · simp only [formContext, has_reqSet, unsettledReq_iff, exists_and_left]
  · simp only [formContext, has_reqSet, movingReq_iff, and_assoc, exists_and_left]
  · simp only [formContext, has_switchedTowers, and_assoc]

/-- The sets depend on the store and the contactors alone. -/
theorem SetsOfStart.congr {x : TxContext} {s t : State} (h : SetsOfStart x s) (hp : t.pst = s.pst) (hc : t.ctu = s.ctu) :
    SetsOfStart x t := by
  unfold SetsOfStart State.recordOf at *
  rw [hp, hc]
  exact h

/-! ## The tests of a command (R166, R167) -/

/-- With an admitted count a frame passes tests 2 to 4 exactly when it is not a broadcast turned away and every range test
holds. -/
theorem precheck_eq_none {c : Cmd} {m : Mgmt} (h : c.admitsCount m.params.length = true) :
    precheck c m = none ↔ (m.dest ≠ 0 ∨ c.broadcast = true) ∧ ∀ r ∈ c.ranges m, r.2 = true := by
  unfold precheck
  rw [h]
  by_cases hb : m.dest = 0 ∧ c.broadcast = false
  · simp [hb]
  · rw [if_neg hb, if_neg Bool.noConfusion]
    have : m.dest ≠ 0 ∨ c.broadcast = true := by
      by_cases hd : m.dest = 0
      · exact .inr (by simpa [hd] using hb)
      · exact .inl hd
    simp only [this, true_and]
    cases hf : (c.ranges m).find? (fun r => !r.2) with
    | none => simpa [List.find?_eq_none] using hf
    | some r =>
      have h1 := List.mem_of_find?_eq_some hf
      have h2 : r.2 = false := by simpa using List.find?_some hf
      simp only [reduceCtorEq, false_iff, not_forall]
      exact ⟨r, h1, by simp [h2]⟩

/-- The range tests stand in ascending order of their words. -/
theorem Cmd.ranges_ascending (c : Cmd) (m : Mgmt) : ((c.ranges m).map (·.1)).Pairwise (· < ·) := by
  cases c <;> simp [Cmd.ranges]

/-! ## Reports that find nothing to do (R64, R69, R75) -/

/-- A frame event with no Armed Request and no GO taken sets the frame number alone. -/
theorem frameEvent_alone {s : State} (h : s.txe.armed = none) (hg : ∀ c f, s.txe.array ≠ .readyUp c (.taken f))
    (n : FrameNum) (b : Bool) : frameEvent n b s = s.setTxe { s.txe with frame := some n } := by
  unfold frameEvent
  simp only [State.setTxe, h]
  split <;> first | rfl | (rename_i hh; exact absurd hh (hg _ _))

/-- Ramp-ended reports outside RAMP_UP change nothing. -/
theorem takeRampEnds_outside {s : State} (h : ∀ c e, s.txe.array ≠ .rampUp c e) (ends : List (TowerIx × RampEnd)) :
    takeRampEnds ends s = s := by
  unfold takeRampEnds
  split <;> first | rfl | (rename_i hh; exact absurd hh (h _ _))

/-- In RAMP_DOWN the at-rest change that leaves every tower outside the blend set at rest enters SWITCHING. -/
theorem takeAtRest_rampDown {c : TxContext} {s : State} (h : s.txe.array = .rampDown c)
    (hr : ∀ k : TowerIx, has c.blend k = true ∨ s.dsy.atRest k = true) : takeAtRest s = enterSwitching c s := by
  have hd : s.dsy.restIn (~~~c.blend) = true := by
    rw [restIn_iff]
    intro t ht
    rcases hr t with h1 | h1
    · simp [h1] at ht
    · exact h1
  simp [takeAtRest, h, hd]

theorem takeAtRest_rampDown_stays {c : TxContext} {s : State} (h : s.txe.array = .rampDown c) {k : TowerIx}
    (hb : has c.blend k = false) (hk : s.dsy.atRest k = false) : takeAtRest s = s := by
  have hd : s.dsy.restIn (~~~c.blend) = false := by
    rw [← Bool.not_eq_true, restIn_iff]
    intro hh
    have := hh k (by simp [hb])
    simp [hk] at this
  simp [takeAtRest, h, hd]

end Sys2Proof.Machine
end

