-- ==== Sys2Proof/WellFormed.lean ====
section
/-! DEFINITION. Which commands are well formed. Tower, contactor, target and strap operands are bounded by their types; what is
left is how many words a port can carry in one frame. -/
namespace Sys2Proof

/-- The length of a whole sample frame: kind word, 51 body words, check word (R152, R176). That a failed frame in its place
carries no more is the model's: R152 states a room for the message slot only. DESIGN CHOICE, log 42. -/
def sampleCapacity : Nat := 53

/-- The message slot has room for a frame of 60 body words, between its kind word and its check word (R152). -/
def messageCapacity : Nat := 62

/-- The length of a whole monitor record: 20 words and a check word (R105, R176). That a failed one carries no more is the
model's. DESIGN CHOICE, log 42. -/
def monitorCapacity : Nat := 21

/-- The operands of the command fit the port that carries them. -/
def Instr.wellFormed : Instr → Bool
  | .sampleFrame rx => rx.words.length ≤ sampleCapacity
  | .mgmtFrame rx => rx.words.length ≤ messageCapacity
  | .timeFrame rx => rx.words.length ≤ messageCapacity
  | .releaseFrame rx => rx.words.length ≤ messageCapacity
  | .emptyFrame rx => rx.words.length ≤ messageCapacity
  | .monitorRecord rx => rx.words.length ≤ monitorCapacity
  | .powerOnReset _ | .resetAsserted | .refclkStopped | .refclkReturned | .missedFrame | .localPaceFrame
  | .lossTimerExpiry | .status | .switch | .withdraw | .go | .continueTx | .retreat | .mute | .move | .ackFault
  | .trimClear | .scheduleHold | .claim | .load | .commit | .finish | .unclaim | .read | .reporting | .clearOverflow
  | .restart | .interlockOpening | .interlockLineClosed | .interlockQualified | .rdyLineChange _ _
  | .cabinetDebounceExpiry _ | .auxInputChange _ _ _ | .auxDebounceExpiry _ _ | .travelLimitExpiry _
  | .settleTimerExpiry | .gateTimerExpiry | .checkCompletion _ | .claimLapse _ | .absenceTimerExpiry | .holdOffExpiry
  | .staleTimerExpiry | .unknownCommand => true

end Sys2Proof
end

