-- ==== Sys2Proof/Tests/Slice0.lean ====
section
/-! SUPPORT. Tests: ill-formed commands, a bench of small states, for every statement with hypotheses a state and operands that
meet them (with the answer of the command they are about, where it has one), and worked values of the spec. -/
namespace Sys2Proof.Machine

set_option Elab.async false

/-! ## Ill-formed commands -/

/-- A frame of n words. -/
def Bench.long (n : Nat) : Rx := { words := List.replicate n 0, aborted := false }

theorem test_wellFormed_sample : (Instr.sampleFrame (Bench.long 54)).wellFormed = false
    ∧ (Instr.sampleFrame (Bench.long 53)).wellFormed = true := by decide +kernel
theorem test_wellFormed_mgmt : (Instr.mgmtFrame (Bench.long 63)).wellFormed = false
    ∧ (Instr.mgmtFrame (Bench.long 62)).wellFormed = true := by decide +kernel
theorem test_wellFormed_time : (Instr.timeFrame (Bench.long 63)).wellFormed = false := by decide +kernel
theorem test_wellFormed_release : (Instr.releaseFrame (Bench.long 63)).wellFormed = false := by decide +kernel
theorem test_wellFormed_empty : (Instr.emptyFrame (Bench.long 63)).wellFormed = false := by decide +kernel
theorem test_wellFormed_monitor : (Instr.monitorRecord (Bench.long 22)).wellFormed = false
    ∧ (Instr.monitorRecord (Bench.long 21)).wellFormed = true := by decide +kernel

/-- No row of the table gives bits, so no word spells a command (log 5). -/
theorem test_no_word_spells_a_command : decodeTableWord 16 1 = none
    ∧ State.reset.withFetchWord 16 1 = State.reset := by decide +kernel

/-! ## The bench -/

/-- A record for tower 0 that requires contactor 0 CLOSED: label ABCD, ramps of 100 and 200 frames, settle 10 ms, hold-off 3 s. -/
def Bench.record (flags fallback : Word) : List Word :=
  [41217, 0x4142, 0x4344, 1, 255, 32768, 100, 200, 10, 3000, flags, 2563, fallback, 320, 100, 50,
   0, 12288, 11250, 8192, 53036, 50, 300, 1, 256]

/-- Words at consecutive addresses, zeros left out. -/
def Bench.memory (base : Nat) (ws : List Word) : Mem :=
  (ws.zipIdx base).filterMap fun x => if x.1 = 0 then none else some (x.2, x.1)

/-- Slots 2 and 5 hold records that permit blends and trim, slot 7 one that does not; slot 2 falls back to 7, slot 5 to none. -/
def Bench.pst : Pst :=
  { Pst.reset with
    dir := setAt (setAt (setAt Pst.reset.dir 2 (.valid 0 25 77 0x41424344)) 5 (.valid 25 25 78 0x41424344)) 7
      (.valid 50 25 79 0x41424344)
    store := Bench.memory 0 (Bench.record 272 7 ++ Bench.record 272 65535 ++ Bench.record 0 65535) }

/-- Contactor 0, of tower 0, travel limit 500 ms. -/
def Bench.contactor (p : Position) (st : ContactorState) : Contactor :=
  { assoc := .tower 0, limit := 500, commanded := p, state := st }

/-- The contactor numbers with contactor 0 defined and showing the given levels. -/
def Bench.ctu (e : Contactor) (o c : Bool) : Ctu :=
  { units := setAt Ctu.reset.units 0 { ContactorUnit.reset with openShown := o, closedShown := c, entry := some e }, guard := none }

/-- A history record of sequence 41. -/
def Bench.history (o : HistOutcome) (e : Option FrameNum) : HistRecord :=
  { seq := 41, cause := .command, source := some 2, target := 5, label := 0x41424344, mode := .fullMute, joint := false, start := 10,
    endFrame := e, outcome := o, halts := 0 }

/-- A running transition from slot 2 to slot 5, joint with a gate of 10 ms. -/
def Bench.context : TxContext :=
  { cause := .command, source := some 2, target := 5, mode := .fullMute, joint := some 10, downLen := 100, upLen := 200,
    moving := 1, unsettled := 1, switched := 1, blend := 0, awaited := 0, moved := false }

/-- A halt of that transition in SWITCHING. -/
def Bench.halt : HaltContext :=
  { reason := .stuck, step := .switching, subject := .contactor 0, cause := .command, source := some 2, target := 5,
    mode := .fullMute, joint := none, upLen := 200, seq := 41, restNoticed := true }

/-- A request for slot 5 at frame 102. -/
def Bench.armed : Armed :=
  { target := 5, mode := .default, frame := 102, joint := none, down := none, up := none, cause := .command }

/-- A unit in GOOD at frame 100, interlock closed and cabinets ready, contactor 0 standing OPEN, in the given array state. -/
def Bench.unit (a : ArrayState) : State :=
  { State.reset with
    rif := { Rif.reset with recv := .good, run := 16, last := some 100, loss := some 0, frame := some 100, joined := true,
                            slotOpen := true }
    cmu := { Cmu.reset with reports := [] }
    pst := Bench.pst
    txe := { array := a, armed := none, seq := 42, frame := some 100,
             history := [if a.recordOpen then Bench.history .opened none else Bench.history .completed (some 60)] }
    dsy := { Dsy.reset with localPace := false, ilkClosed := true, ilkLine := true, lastNumber := some 100,
                            towers := Vector.replicate 8 { Tower.reset with ready := true, rdyLine := true } }
    ctu := Bench.ctu (Bench.contactor .opened .opened) true false
    mon := { Mon.reset with present := true, absence := some 0, lastSeq := some 9, active := a.activeSlot } }

/-- The same in HUNT at the local pace. -/
def Bench.hunting (a : ArrayState) : State :=
  { Bench.unit a with
    rif := { (Bench.unit a).rif with recv := .hunt, run := 0, loss := none, joined := false }
    dsy := { (Bench.unit a).dsy with localPace := true } }

/-- The unit with another run, in HUNT or SYNC. -/
def Bench.receiving (r : RecvState) (run : Nat) : State :=
  { Bench.unit .unset with
    rif := { (Bench.unit .unset).rif with recv := r, run := run, loss := if r = .hunt then none else some 3, joined := false }
    dsy := { (Bench.unit .unset).dsy with localPace := r == .hunt } }

/-- The unit with tower 0 driven. -/
def Bench.driven (a : ArrayState) : State :=
  (Bench.unit a).setDsy { (Bench.unit a).dsy with
    towers := modifyAt (Bench.unit a).dsy.towers 0 fun x => { x with amp := 12288, phase := 11250, order := .follow 2 } }

/-- The unit with contactor 0 replaced. -/
def Bench.switching (a : ArrayState) (e : Contactor) (o c : Bool) : State := (Bench.unit a).setCtu (Bench.ctu e o c)

/-- A command frame for this unit. -/
def Bench.cmd (c : Cmd) (ps : List Word) : Mgmt := { dest := 1, source := 2, tag := 9, code := c.code, params := ps }

/-- The same from controller 3. -/
def Bench.cmd3 (m : Mgmt) : Mgmt := { m with source := 3 }

/-- The frame stands alone in the Command Queue. -/
def State.serving (s : State) (m : Mgmt) : State := s.setCmu { s.cmu with queue := [m] }

/-- The next state answered, if there is one. -/
def Bench.got : Result → Option State
  | .next t => some t
  | .fault _ => none
  | .refused _ => none

/-- The state a step answers; the state before where it answers none. -/
def Bench.after (i : Instr) (s : State) : State :=
  match exec i s with
  | .next t => t
  | _ => s

/-- The outcome and data of the return record that entered last. -/
def Bench.reply (i : Instr) (s : State) : Option (OutcomeCode × List Word) :=
  match (Bench.after i s).cmu.reports.getLast? with
  | some (.ret _ _ _ o d) => some (o, d)
  | _ => none

/-- The kinds of the notices a step leaves in the Report Queue. -/
def Bench.kinds (i : Instr) (s : State) : List NoticeKind :=
  (Bench.after i s).cmu.reports.filterMap fun
    | .notice k _ _ _ _ => some k
    | .ret _ _ _ _ _ => none

/-- The sample frame of number n with a constant envelope. -/
def Bench.sample (n : FrameNum) : Sample := { number := n, reference := 4660, envelope := List.replicate 48 32768 }

/-- A sample frame that fails. -/
def Bench.failed : Rx := { words := [1, 0, 101], aborted := true }

/-! ## The machine and its pins -/

theorem test_step_front : Bench.got (step (State.reset.setPending [.refclkStopped, .refclkReturned]))
    = some { State.reset.setPending [.refclkReturned] with refclk := false } := by decide +kernel

/-- The hypotheses of the idle step's four cases, and a timer one before its limit and at it. -/
theorem test_idle_cases : State.reset.pending = [] ∧ State.reset.running = true ∧ State.reset.cmu.queue = []
    ∧ (Bench.after .resetAsserted State.reset).running = false
    ∧ Bench.got (step (State.reset.serving (Bench.cmd .status []))) = some ((State.reset.serving (Bench.cmd .status [])).setPending [.status])
    ∧ (idle { State.reset with quarter := 3, dsy := { Dsy.reset with ilkTimer := some 99 } }).pending = [.interlockQualified]
    ∧ (idle { State.reset with quarter := 3, dsy := { Dsy.reset with ilkTimer := some 98 } }).pending = []
    ∧ (idle { State.reset with dsy := { Dsy.reset with paceLeft := 1 } }).pending = [.localPaceFrame]
    ∧ (idle (Bench.receiving .sync 3)).pending = []
    ∧ (idle { Bench.receiving .sync 3 with rif := { (Bench.receiving .sync 3).rif with loss := some 11 } }).pending
        = [.lossTimerExpiry]
    ∧ (idle { Bench.unit (.settle Bench.context 9) with quarter := 3 }).pending = [.settleTimerExpiry]
    ∧ (idle { Bench.unit (.readyUp Bench.context (.awaiting 9)) with quarter := 3 }).pending = [.gateTimerExpiry] := by
  decide +kernel

/-- A quarter that ends a millisecond and one that does not; the expiries of a travel, of both debounces of a contactor, of a
claim and of a check at their limits. -/
theorem test_idle_counts :
    let ends := fun (s : State) => idle { s with quarter := 3 }
    let travel := Bench.switching .unset (Bench.contactor .closed (.toClosed 499)) false false
    let aux := (Bench.unit .unset).setCtu { Ctu.reset with units := modifyAt Ctu.reset.units 3 fun u =>
      { u with openTimer := some 19, closedTimer := some 19 } }
    let claim := fun (p : LoadPhase) => (Bench.unit .unset).setClaim 9
      (some { phase := p, holder := 2, length := 62, segment := 32, running := 0, committed := 0 })
    (ends travel).ctu.stateOf 0 = some (.toClosed 500) ∧ (ends travel).pending = [.travelLimitExpiry 0]
    ∧ (idle travel).ctu = travel.ctu ∧ (idle travel).quarter = 1
    ∧ (ends aux).pending = [.auxDebounceExpiry 3 .showsOpen, .auxDebounceExpiry 3 .showsClosed]
    ∧ (ends (claim (.loading 59999))).pending = [.claimLapse 9]
    ∧ (ends (claim (.checking 7 39))).pending = [.checkCompletion 9]
    ∧ (ends (claim (.checking 7 38))).pending = [] := by decide +kernel

/-- Expiries due at the end of a millisecond, and within one, stand in their order. -/
theorem test_expiry_order :
    let s := { Bench.unit .unset with
      rif := { (Bench.unit .unset).rif with loss := some 11 }
      dsy := { (Bench.unit .unset).dsy with ilkTimer := some 99, paceLeft := 1 }
      ctu := { (Bench.unit .unset).ctu with units := modifyAt (Bench.unit .unset).ctu.units 3 fun u =>
        { u with openTimer := some 19, closedTimer := some 19 } } }
    (idle { s with quarter := 3 }).pending = [.interlockQualified, .auxDebounceExpiry 3 .showsOpen,
      .auxDebounceExpiry 3 .showsClosed, .lossTimerExpiry, .missedFrame]
    ∧ (idle { s with quarter := 3 }).pending.Sublist allExpiries
    ∧ (idle { s with quarter := 1 }).pending = [.lossTimerExpiry, .missedFrame] := by decide +kernel

/-- RESTART served with an OPEN record behind it, and with none. -/
theorem test_restart : Serves .restart (Bench.cmd .restart []) ((Bench.unit (.halted Bench.halt)).serving (Bench.cmd .restart []))
    ∧ (Bench.unit (.halted Bench.halt)).txe.history.head?.map (·.outcome) = some .opened
    ∧ (Bench.unit (.active 2)).txe.history.head?.map (·.outcome) = some .completed
    ∧ Bench.reply .restart ((Bench.unit (.halted Bench.halt)).serving (Bench.cmd .restart [])) = some (.done, [0, 0])
    ∧ (Bench.after .restart ((Bench.unit (.halted Bench.halt)).serving (Bench.cmd .restart []))).txe.history
        = [Bench.history .abandoned (some 100)] := by decide +kernel

theorem test_power_on : (Bench.after (.powerOnReset 4) (Bench.unit (.active 2))).cmu.reports
      = [.notice .unitStarted none none none [5, 1]]
    ∧ (Bench.after (.powerOnReset 15) State.reset).rif.addr = 16
    ∧ (Bench.after (.powerOnReset 0) (Bench.unit .unset)).dsy.ilkTimer = some 0
    ∧ (Bench.after (.powerOnReset 0) State.reset).dsy.ilkTimer = none
    ∧ (Bench.after (.powerOnReset 0) (Bench.unit .unset)).dsy.towers[(7 : TowerIx)].debounce = some 0
    ∧ (Bench.after (.powerOnReset 0) State.reset).dsy.towers[(7 : TowerIx)].debounce = none := by decide +kernel

/-- A timer row while RESET is asserted and while REFCLK stands still. -/
theorem test_timer_rows_stop : isTimerRow .gateTimerExpiry = true ∧ isTimerRow .missedFrame = true
    ∧ (Bench.after .refclkStopped (Bench.unit .unset)).refclk = false
    ∧ Bench.got (exec .missedFrame (Bench.after .refclkStopped (Bench.unit .unset))) = some (Bench.after .refclkStopped (Bench.unit .unset))
    ∧ Bench.got (exec .gateTimerExpiry (Bench.after .resetAsserted (Bench.unit .unset)))
        = some (Bench.after .resetAsserted (Bench.unit .unset)) := by decide +kernel

/-- A command, a frame and a check while RESET is asserted. -/
theorem test_rows_stop_in_reset :
    let s := Bench.after .resetAsserted (Bench.unit (.active 2))
    s.running = false ∧ Bench.got (exec .status s) = some s ∧ Bench.got (exec (.sampleFrame (sealWords [1])) s) = some s
    ∧ Bench.got (exec (.checkCompletion 9) s) = some s ∧ Bench.got (exec .interlockQualified s) = some s := by decide +kernel

/-! ## The ring -/

theorem test_sample_is_received : parseSample (sealWords (sampleWords (Bench.sample 101))) = some (Bench.sample 101)
    ∧ parseSample Bench.failed = none := by decide +kernel

/-- Each row of the receive table: HUNT and SYNC with a consecutive and a broken run, GOOD; and a failed frame. -/
theorem test_receive_table :
    (∀ x ∈ [(RecvState.hunt, 0), (.hunt, 1), (.sync, 0), (.sync, 2), (.sync, 15), (.good, 16)],
      (Bench.receiving x.1 x.2).running = true ∧ RingLaw (Bench.receiving x.1 x.2))
    ∧ [(RecvState.hunt, 0), (.hunt, 1), (.sync, 0), (.sync, 2), (.sync, 15), (.good, 16)].map (fun x =>
        let t := Bench.after (.sampleFrame (sealWords (sampleWords (Bench.sample 101)))) (Bench.receiving x.1 x.2)
        (t.rif.recv, t.rif.run))
      = [(.hunt, 1), (.sync, 2), (.sync, 1), (.sync, 3), (.good, 16), (.good, 16)]
    ∧ [(RecvState.hunt, 1), (.sync, 15), (.good, 16)].map (fun x =>
        let t := Bench.after (.sampleFrame (sealWords (sampleWords (Bench.sample 103)))) (Bench.receiving x.1 x.2)
        (t.rif.recv, t.rif.run))
      = [(.hunt, 1), (.sync, 1), (.good, 16)]
    ∧ [(RecvState.hunt, 1), (.sync, 15), (.good, 16)].map (fun x =>
        let t := Bench.after (.sampleFrame Bench.failed) (Bench.receiving x.1 x.2)
        (t.rif.recv, t.rif.run))
      = [(.hunt, 0), (.sync, 0), (.good, 16)] := by decide +kernel

/-- The entry to GOOD clears the loss-since-good flag and the loss count, and no other sample frame touches them; each opens
the message slot. -/
theorem test_sample_frame_flags :
    let lost := fun (r : RecvState) (run : Nat) =>
      let s := Bench.receiving r run
      s.setRif { s.rif with lossSinceGood := true, lossCount := 3, slotOpen := false }
    let shown := fun (rx : Rx) (s : State) =>
      let t := Bench.after (.sampleFrame rx) s
      (t.rif.recv, t.rif.lossSinceGood, t.rif.lossCount, t.rif.slotOpen)
    let rx := sealWords (sampleWords (Bench.sample 101))
    shown rx (lost .sync 15) = (.good, false, 0, true) ∧ shown rx (lost .sync 14) = (.sync, true, 3, true)
    ∧ shown rx (lost .good 16) = (.good, true, 3, true) ∧ shown rx (lost .hunt 0) = (.hunt, true, 3, true)
    ∧ shown Bench.failed (lost .sync 15) = (.sync, true, 3, true) := by decide +kernel

/-- A frame handed over in GOOD and one from HUNT; one that is not. -/
theorem test_sample_frame_to_ports :
    ((Bench.after (.sampleFrame (sealWords (sampleWords (Bench.sample 101)))) (Bench.driven (.active 2))).dsy.towers[0].port.map
      fun d => (d.number, d.state, d.phase, d.samples.head?)) = some (101, .driven, 11250, some 12288)
    ∧ (Bench.after (.sampleFrame (sealWords (sampleWords (Bench.sample 101)))) (Bench.receiving .hunt 1)).rif.frame = some 101
    ∧ (Bench.after (.sampleFrame (sealWords (sampleWords (Bench.sample 101)))) (Bench.receiving .hunt 0)).rif.frame = some 100 := by
  decide +kernel

/-- A handed frame is a ring frame, in GOOD and from HUNT; one that completes the entry to GOOD. -/
theorem test_handed_frames :
    let rx := sealWords (sampleWords (Bench.sample 101))
    (∀ s ∈ [Bench.driven (.active 2), Bench.receiving .hunt 1, Bench.receiving .sync 3],
      Bench.after (.sampleFrame rx) s = handValid (Bench.sample 101) (s.setRif (Bench.after (.sampleFrame rx) s).rif))
    ∧ (Bench.after (.sampleFrame rx) (Bench.receiving .sync 15)).rif.recv = .good
    ∧ Bench.after .missedFrame (Bench.driven (.active 2))
      = handHeld 2 ((Bench.driven (.active 2)).setRif (Bench.after .missedFrame (Bench.driven (.active 2))).rif)
    ∧ Bench.after (.sampleFrame Bench.failed) (Bench.driven (.active 2))
      = handHeld 3 ((Bench.driven (.active 2)).setRif (Bench.after (.sampleFrame Bench.failed) (Bench.driven (.active 2))).rif) := by
  decide +kernel

/-- A frame that clips towers 1 and 3 in FOLLOW at amplitude 49152, tower 3 with its flag set already. -/
theorem test_clipping :
    let hot := fun (noticed : Bool) (x : Tower) => { x with
      clipNoticed := noticed,
      order := .ramp { startAmp := 0, startPhase := 0, target := .pattern 2, endAmp := 49152, endPhase := 0, length := 1, step := 0,
                       manner := .jump } }
    let s := (Bench.unit (.active 2)).setDsy { (Bench.unit (.active 2)).dsy with
      towers := modifyAt (modifyAt (Bench.unit (.active 2)).dsy.towers 1 (hot false)) 3 (hot true) }
    let t := writeFrames { number := 101, reference := 0, envelope := [43690, 43691, 65535] } s
    t.cmu.reports = [.notice .clipping (some 100) (some 1) none [49152, 43691]]
    ∧ t.dsy.towers[(1 : TowerIx)].clipNoticed = true
    ∧ (writeFrames { number := 101, reference := 0, envelope := [43690] } s).cmu.reports = [] := by decide +kernel

theorem test_failed_and_missed : (Bench.unit (.active 2)).dsy.localPace = false ∧ (Bench.unit (.active 2)).rif.recv ≠ .hunt
    ∧ (Bench.unit (.active 2)).refclk = true
    ∧ (Bench.after (.sampleFrame Bench.failed) (Bench.unit (.active 2))).txe.frame = some 101
    ∧ (Bench.after .missedFrame (Bench.unit (.active 2))).dsy.lastNumber = some 101 := by decide +kernel

theorem test_local_pace : Counting (Bench.hunting .unset) ∧ (Bench.hunting .unset).dsy.localPace = true
    ∧ Counting (Bench.unit .unset) ∧ (Bench.unit .unset).dsy.localPace = false
    ∧ (Bench.after .localPaceFrame State.reset).dsy.lastNumber = some 0
    ∧ (Bench.after .localPaceFrame (Bench.hunting .unset)).dsy.lastNumber = some 101 := by decide +kernel

/-- Rows that change RIF alone or nothing: a failed frame in HUNT and at the local pace, a missed one at the local pace. -/
theorem test_frames_not_handed :
    let s := Bench.hunting (.active 2)
    Bench.after (.sampleFrame Bench.failed) s = s.setRif (Bench.after (.sampleFrame Bench.failed) s).rif
    ∧ Counting s ∧ s.running = true ∧ (Bench.after (.sampleFrame Bench.failed) s).rif.frame = s.rif.frame
    ∧ (let u := s.setRif { s.rif with recv := .sync }
      (Bench.after (.sampleFrame Bench.failed) u).rif.frame = some 101)
    ∧ Bench.after .missedFrame s = s ∧ s.dsy.localPace = true := by decide +kernel

/-- A loss from ACTIVE, from a phase, from MUTING, UNSET, MUTED and HALTED, and one in HUNT. -/
theorem test_loss : (Bench.hunting .unset).rif.recv = .hunt
    ∧ (∀ a ∈ [ArrayState.active 2, .switching Bench.context, .muting, .unset, .muted none, .halted Bench.halt],
        Counting (Bench.unit a) ∧ (Bench.unit a).rif.recv ≠ .hunt ∧ (Bench.unit a).cmu.reports.length ≤ 24)
    ∧ [ArrayState.active 2, .switching Bench.context, .muting, .unset, .muted none, .halted Bench.halt].map (fun a =>
        (Bench.after .lossTimerExpiry (Bench.unit a)).txe.array.code) = [10, 8, 10, 1, 10, 8]
    ∧ (Bench.after .lossTimerExpiry (Bench.unit (.active 2))).txe.array.resume = some 2 := by decide +kernel

/-- The entry to GOOD with the loss-since-good flag set and clear; a regain with and without a resume pattern. -/
theorem test_regain :
    let lost := fun (b : Bool) => { Bench.receiving .sync 15 with rif := { (Bench.receiving .sync 15).rif with lossSinceGood := b } }
    let rx := sealWords (sampleWords (Bench.sample 101))
    (lost true).running = true ∧ (lost true).rif.recv = .sync ∧ (lost true).rif.run = 15 ∧ (lost true).rif.last = some (101 - 1)
    ∧ Bench.kinds (.sampleFrame rx) (lost true) = [.ringRegained] ∧ Bench.kinds (.sampleFrame rx) (lost false) = []
    ∧ (takeRegain (Bench.unit (.muted (some 2)))).txe.history.head?.map (·.cause) = some .resume
    ∧ (Bench.unit (.muted none)).txe.array.resume = none := by decide +kernel

/-- A MGMT frame of 56 parameters that joins the queue; one that finds it full; one not for this unit; one out of its slot. -/
theorem test_mgmt :
    let m := Bench.cmd .load (List.replicate 56 0)
    let full := (Bench.unit .unset).setCmu { Cmu.reset with reports := [], queue := List.replicate 4 (Bench.cmd .status []) }
    let three := (Bench.unit .unset).setCmu { Cmu.reset with reports := [], queue := List.replicate 3 (Bench.cmd .status []) }
    parseMgmt (sealWords (mgmtWords m)) = some m ∧ three.running = true ∧ three.rif.slotOpen = true ∧ three.rif.recv ≠ .hunt
    ∧ m.dest = three.rif.addr ∧ m.source ≠ 0 ∧ m.params.length ≤ 56
    ∧ (Bench.after (.mgmtFrame (sealWords (mgmtWords m))) three).cmu.queue.length = 4
    ∧ Bench.reply (.mgmtFrame (sealWords (mgmtWords m))) full = some (.overrun, [])
    ∧ (Bench.after (.mgmtFrame (sealWords (mgmtWords { m with dest := 2 }))) three).cmu = three.cmu
    ∧ (Bench.after (.mgmtFrame (sealWords (mgmtWords { m with source := 0 }))) three).cmu = three.cmu
    ∧ (Bench.after (.mgmtFrame (sealWords (mgmtWords m))) (Bench.hunting .unset)).cmu.queue = [] := by decide +kernel

/-- TIME: out of range, first, equal, later on the day, the next day, a step back, and out of a STALE clock. -/
theorem test_time :
    let rx := fun (y md t : Nat) => sealWords [4, word y, word md, word (t / 65536), word (t % 65536)]
    let at_ := fun (c : Clock) => (Bench.unit .unset).setScu { Scu.reset with clock := c }
    let d : Date := { year := 2024, month := 2, day := 28 }
    (parseTime (rx 2024 (256 * 29 + 2) 86399)).isSome = true
    ∧ (at_ .unset).rif.slotOpen = true ∧ (at_ .unset).rif.recv ≠ .hunt ∧ (at_ .unset).running = true
    ∧ Bench.kinds (.timeFrame (rx 2024 (256 * 30 + 2) 0)) (at_ .unset) = [.timeInvalid]
    ∧ Bench.kinds (.timeFrame (rx 2024 (256 * 29 + 2) 86400)) (at_ .unset) = [.timeInvalid]
    ∧ Bench.kinds (.timeFrame (rx 2099 (256 * 31 + 12) 86399)) (at_ .unset) = [.clockSet]
    ∧ Bench.kinds (.timeFrame (rx 2024 (256 * 28 + 2) 100)) (at_ (.set d 100)) = []
    ∧ Bench.kinds (.timeFrame (rx 2024 (256 * 28 + 2) 101)) (at_ (.set d 100)) = []
    ∧ Bench.kinds (.timeFrame (rx 2024 (256 * 29 + 2) 0)) (at_ (.set d 100)) = []
    ∧ Bench.kinds (.timeFrame (rx 2024 (256 * 28 + 2) 99)) (at_ (.set d 100)) = [.clockStepped]
    ∧ Bench.kinds (.timeFrame (rx 2024 (256 * 28 + 2) 101)) (at_ (.stale d 100)) = [.clockSet] := by decide +kernel

/-! ## The schedule -/

/-- A schedule entry every day of every month. -/
def Bench.entry (minute : Nat) (target : Slot) (mode : ReqMode) : SchedEntry :=
  { enabled := true, months := BitVec.allOnes 12, minute := minute, target := target, mode := mode, lastFired := none }

/-- Entries 0 to 2: minute 10 to slot 5, minute 5 to slot 2, minute 10 to slot 7 by BLEND; entry 3 to an EMPTY slot. -/
def Bench.table : Vector (Option SchedEntry) 48 :=
  setAt (setAt (setAt (setAt Scu.reset.table 0 (some (Bench.entry 10 5 .default))) 1 (some (Bench.entry 5 2 .default)))
    2 (some (Bench.entry 1439 7 .blend))) 3 (some (Bench.entry 0 9 .default))

def Bench.date : Date := { year := 2024, month := 2, day := 28 }

/-- The occurrence of entry k on the bench's date. -/
def Bench.due (k : EntryIx) : Occurrence := { entry := k, date := Bench.date }

/-- The unit with the bench's table, and a hold, deferred and held-due entry as given. -/
def Bench.scheduled (a : ArrayState) (hold : Bool) (deferred held : Option Occurrence) : State :=
  (Bench.unit a).setScu { Scu.reset with clock := .set Bench.date 300, stale := some 5, table := Bench.table, hold := hold,
                                         deferred := deferred, held := held }

/-- Both ends of the crossed parts: the second left is not crossed, the second reached is. -/
theorem test_crossed_span :
    let u : Scu := { Scu.reset with table := Bench.table }
    occurrences u Bench.date 300 Bench.date 600 = [Bench.due 0]
    ∧ occurrences u Bench.date 299 Bench.date 599 = [Bench.due 1]
    ∧ occurrences u Bench.date 0 Bench.date 600 = [Bench.due 1, Bench.due 0]
    ∧ occurrences u Bench.date 86339 Bench.date.next 0 = [Bench.due 2, { entry := 3, date := Bench.date.next }] := by
  decide +kernel

/-- Every answer of TXE to a request: its hypotheses, and the answer. -/
theorem test_requests :
    let armed := (Bench.unit (.active 2)).setArmed (some Bench.armed)
    let ilk := (Bench.unit (.active 2)).setDsy { (Bench.unit (.active 2)).dsy with ilkClosed := false }
    let s := Bench.unit (.active 2)
    (request 5 .default none .schedule (Bench.unit .unset)).2 = .state false
    ∧ (request 5 .default none .fallback (Bench.unit .muting)).2 = .state true
    ∧ (request 5 .default none .schedule armed).2 = .armedStands
    ∧ (request 5 .default none .schedule ilk).2 = .interlock
    ∧ (request 9 .default none .schedule s).2 = .notValid ∧ (request 2 .default none .schedule s).2 = .alreadyActive
    ∧ (request 7 .blend none .schedule s).2 = .notPermitted ∧ s.txe.frame = some 100
    ∧ (request 5 .default (some 101) .schedule s).2 = .late
    ∧ (request 5 .default (some (100 + 0x80000000)) .schedule s).2 = .late
    ∧ (request 5 .default (some (100 + 0x7FFFFFFF)) .schedule s).2 = .far
    ∧ (request 5 .default (some (100 + 0x100001)) .schedule s).2 = .far
    ∧ (request 5 .default (some (100 + 0x100000)) .schedule s).2 = .armed (100 + 0x100000)
    ∧ (request 5 .default (some 102) .schedule s).2 = .armed 102
    ∧ (request 7 .blend none .fallback s).2 = .armed 101 := by decide +kernel

/-- What becomes of an occurrence: under the hold, and by each answer. -/
theorem test_occurrences_taken :
    let kinds := fun (s : State) => s.cmu.reports.filterMap fun
      | .notice _ _ _ _ d => some (d.take 2)
      | .ret _ _ _ _ _ => none
    let ilk := (Bench.scheduled (.active 2) false none none).setDsy { Dsy.reset with localPace := false }
    (Bench.scheduled (.active 2) false none none).scu.table[(0 : EntryIx)] = some (Bench.entry 10 5 .default)
    ∧ (takeOccurrence (Bench.due 0) (Bench.scheduled (.active 2) true none none)).scu.held = some (Bench.due 0)
    ∧ (takeOccurrence (Bench.due 0) (Bench.scheduled (.active 2) true none (some (Bench.due 1)))).scu.held = some (Bench.due 0)
    ∧ (kinds (takeOccurrence (Bench.due 0) (Bench.scheduled (.active 2) true none (some (Bench.due 1))))).length = 2
    ∧ (takeOccurrence (Bench.due 0) (Bench.scheduled (.active 2) false none none)).txe.armed.map (·.frame) = some 164
    ∧ (takeOccurrence (Bench.due 1) (Bench.scheduled (.active 2) false none none)).txe.armed = none
    ∧ (takeOccurrence (Bench.due 2) (Bench.scheduled (.active 2) false none none)).txe.armed = none
    ∧ (takeOccurrence (Bench.due 3) (Bench.scheduled (.active 2) false none none)).txe.armed = none
    ∧ (takeOccurrence (Bench.due 0) ilk).txe.armed = none
    ∧ (takeOccurrence (Bench.due 0) (Bench.scheduled .muting false none none)).scu.deferred = some (Bench.due 0)
    ∧ (takeOccurrence (Bench.due 0) (Bench.scheduled .muting false (some (Bench.due 1)) none)).scu.deferred = some (Bench.due 0)
    ∧ (takeOccurrence (Bench.due 0) (Bench.scheduled (.muted none) false none none)).scu.deferred = none := by decide +kernel

/-- A deferred entry at the entry to ACTIVE, of the table and of none, and at an entry to MUTED. -/
theorem test_deferred_entry :
    let at_ := fun (o : Occurrence) => Bench.scheduled (.active 2) false (some o) none
    (at_ (Bench.due 0)).scu.deferred = some (Bench.due 0)
    ∧ (tellActive 2 (at_ (Bench.due 0))).txe.armed.map (·.frame) = some 101
    ∧ ((tellActive 2 (at_ (Bench.due 0))).scu.table[(0 : EntryIx)].bind (·.lastFired)) = some Bench.date
    ∧ (at_ (Bench.due 9)).scu.table[(9 : EntryIx)] = none ∧ (tellActive 2 (at_ (Bench.due 9))).cmu.reports = []
    ∧ (tellStopped (at_ (Bench.due 0))).cmu.reports
      = [.notice .scheduleDue (some 100) (some 0) none [word (6 + 256 * 11), 5, word Bench.date.days, 0]]
    ∧ (tellStopped (at_ (Bench.due 0))).scu.deferred = none
    ∧ (tellStopped (Bench.scheduled (.active 2) false none none)).cmu.reports = [] := by decide +kernel

/-- An occurrence crossed again after a step back while it stands deferred fires once: the deferred entry goes. -/
theorem test_fires_once :
    let s := Bench.scheduled (.active 2) false (some (Bench.due 0)) none
    let t := takeOccurrence (Bench.due 0) s
    ScheduleLaw s ∧ t.txe.armed.map (·.frame) = some 164 ∧ t.scu.deferred = none ∧ ScheduleLaw t
    ∧ (occurrences t.scu Bench.date 300 Bench.date 600) = []
    ∧ (takeOccurrence (Bench.due 0) (Bench.scheduled (.active 5) false (some (Bench.due 1)) none)).scu.deferred
      = some (Bench.due 1) := by decide +kernel

/-- Dates: leap days, the ends of months and of a year; the count of days and a timestamp. -/
theorem test_dates :
    let d := fun (y m k : Nat) => ({ year := y, month := m, day := k } : Date)
    (d 2024 2 28).next = d 2024 2 29 ∧ (d 2023 2 28).next = d 2023 3 1 ∧ (d 2099 12 31).next = d 2100 1 1
    ∧ (d 2000 1 1).days = 0 ∧ (d 2000 3 1).days = 60 ∧ (d 2001 1 1).days = 366 ∧ (d 2099 12 31).days = 36524
    ∧ timestamp (d 2000 1 2) 7 = 86407 := by decide +kernel

/-- The unit with slot 5 armed and the bench's entry 0 deferred. -/
def Bench.waiting (a : ArrayState) : State :=
  ((Bench.unit a).setArmed (some Bench.armed)).setScu { Scu.reset with table := Bench.table, deferred := some (Bench.due 0) }

/-- The notices of a loss, of an opening and of a halt, with a request armed and an entry deferred. -/
theorem test_notices_of_a_stop :
    let kinds := fun (i : Instr) (s : State) => Bench.kinds i s
    let rising := (Bench.waiting (.halted { Bench.halt with restNoticed := false }))
    kinds .lossTimerExpiry (Bench.waiting (.active 2)) = [.armedWithdrawn, .muted, .scheduleDue, .ringLost]
    ∧ kinds .lossTimerExpiry (Bench.waiting .muting) = [.muted, .scheduleDue, .ringLost]
    ∧ kinds .lossTimerExpiry (Bench.waiting (.switching Bench.context))
      = [.armedWithdrawn, .txHalted, .txAtRest, .scheduleDue, .ringLost]
    ∧ kinds .lossTimerExpiry rising = [.ringLost, .txAtRest] ∧ kinds .lossTimerExpiry (Bench.waiting (.muted none)) = [.ringLost]
    ∧ kinds .interlockOpening (Bench.waiting (.active 2)) = [.interlockOpened, .armedWithdrawn, .muted, .scheduleDue]
    ∧ kinds .interlockOpening rising = [.interlockOpened, .armedWithdrawn, .txAtRest]
    ∧ kinds .interlockOpening (Bench.unit (.muted (some 2))) = [.interlockOpened]
    ∧ (Bench.after .lossTimerExpiry (Bench.waiting (.active 2))).cmu.reports.head?
      = some (.notice .armedWithdrawn none (some 5) none [6, 0, 102, 1])
    ∧ (Bench.after .interlockOpening (Bench.waiting (.active 2))).cmu.reports.drop 1
      = [.notice .armedWithdrawn (some 100) (some 5) none [7, 0, 102, 1], .notice .muted (some 100) none none [3],
         .notice .scheduleDue (some 100) (some 0) none [word (6 + 256 * 11), 5, word Bench.date.days, 0]]
    ∧ (halt .gate .none (Bench.waiting (.switching Bench.context))).cmu.reports.head?
      = some (.notice .armedWithdrawn (some 100) (some 5) none [4, 0, 102, 1]) := by decide +kernel

/-- A RESUME that waits in SWITCHING, one that stays in RAMP_DOWN, and one that goes on to RAMP_UP. -/
theorem test_resume :
    let s := Bench.unit (.muted (some 5))
    let hot := Bench.driven (.muted (some 5))
    (takeRegain s).txe.array.code = 4 ∧ (takeRegain s).txe.array.context.map (fun c => (c.cause, c.source, c.target, c.downLen))
      = some (.resume, none, 5, 256)
    ∧ (takeRegain s).txe.history.head?.map (·.start) = some 100 ∧ (takeRegain s).cmu.reports
      = [.notice .txStarted (some 100) (some 5) none [42, 4, 255, 1]]
    ∧ (takeRegain hot).txe.array.code = 3 ∧ (takeRegain hot).ctu.guard = none
    ∧ (takeRegain (Bench.switching (.muted (some 2)) (Bench.contactor .closed .closed) false true)).txe.array.code = 7 := by
  decide +kernel

/-- SCHEDULE_HOLD in each of its cases. -/
theorem test_schedule_hold :
    let on := Bench.cmd .scheduleHold [1]
    let off := Bench.cmd .scheduleHold [0]
    let catchUp := Bench.cmd .scheduleHold [2]
    let s := fun (hold : Bool) (d h : Option Occurrence) (m : Mgmt) => (Bench.scheduled (.active 2) hold d h).serving m
    Serves .scheduleHold on (s true none none on) ∧ Serves .scheduleHold catchUp (s true none none catchUp)
    ∧ (Bench.after .scheduleHold (s true none none on)).scu.hold = true
    ∧ (Bench.after .scheduleHold (s false none none on)).scu.hold = true
    ∧ (Bench.after .scheduleHold (s false (some (Bench.due 0)) none on)).scu.held = some (Bench.due 0)
    ∧ Bench.reply .scheduleHold (s false none none off) = some (.done, [])
    ∧ (Bench.after .scheduleHold (s true none none off)).scu.hold = false
    ∧ Bench.reply .scheduleHold (s true none (some (Bench.due 0)) off) = some (.done, [0])
    ∧ (Bench.after .scheduleHold (s true none (some (Bench.due 0)) catchUp)).txe.armed.map (·.frame) = some 101 := by
  decide +kernel

/-! ## Reports -/

/-- RELEASE: the join, a release taken with two records, one forwarded; EMPTY with a held release, and without. -/
theorem test_release_and_empty :
    let two : List Record := [.ret 9 2 1 .done (List.replicate 16 0), .notice .muted none none none [1]]
    let s := fun (rif : Rif → Rif) => ((Bench.unit .unset).setCmu { Cmu.reset with reports := two }).setRif (rif (Bench.unit .unset).rif)
    isRelease (sealWords [5]) = true ∧ isEmpty (sealWords [2]) = true ∧ isRelease (sealWords [2]) = false
    ∧ (Bench.unit .unset).rif.slotOpen = true ∧ (Bench.unit .unset).rif.joined = true
    ∧ Bench.kinds (.releaseFrame (sealWords [5])) (s fun r => { r with joined := false }) = [.muted, .ringJoined]
    ∧ (Bench.after (.releaseFrame (sealWords [5])) (s id)).cmu.reports = []
    ∧ (Bench.after (.releaseFrame (sealWords [5])) (s id)).rif.out.map (·.words.take 2) = some [6, 8193]
    ∧ (Bench.after (.releaseFrame (sealWords [5])) (s fun r => { r with reporting := false })).cmu.reports = two
    ∧ (Bench.after (.releaseFrame (sealWords [5])) (s fun r => { r with held := true })).cmu.reports = two
    ∧ (Bench.after (.releaseFrame (sealWords [5])) (s fun r => { r with slotOpen := false })).cmu.reports = two
    ∧ (Bench.after (.emptyFrame (sealWords [2])) (s fun r => { r with held := true })).rif.out = some (sealWords [5])
    ∧ (Bench.after (.emptyFrame (sealWords [2])) (s id)).rif.out = some (sealWords [2]) := by decide +kernel

/-- A RELEASE taken at the limits: 12 of 13 records; records of exactly 59 words; and of one word more. -/
theorem test_release_limits :
    let left := fun (rs : List Record) => (Bench.after (.releaseFrame (sealWords [5]))
      ((Bench.unit .unset).setCmu { Cmu.reset with reports := rs })).cmu.reports.length
    let notice : Record := .notice .muted none none none [1]
    let ret := fun (n : Nat) => Record.ret 9 2 1 .done (List.replicate n 0)
    left (List.replicate 13 (ret 0)) = 1 ∧ left (List.replicate 7 notice ++ [ret 0]) = 0
    ∧ left (List.replicate 7 notice ++ [ret 1]) = 1 := by decide +kernel

/-- The check word of the digits 1 to 8, two to a word, worked out by hand outside the model; a TIME frame; an empty list. -/
theorem test_check_word : checkWord [0x3132, 0x3334, 0x3536, 0x3738] = 0x5ED4
    ∧ checkWord [] = 0 ∧ (parseTime (sealWords [4, 2024, 7170, 1, 20863])).map (·.secLo) = some 20863 := by decide +kernel

/-- A frame of words, one with a wrong check word, and a MGMT frame of 56 parameters. -/
theorem test_frames : ([5] : List Word) ≠ [] ∧ (0 : Word) ≠ checkWord [5] ∧ checkedWords { words := [5, 0], aborted := false } = none
    ∧ checkedWords { words := [5, checkWord [5]], aborted := true } = none
    ∧ (Bench.cmd .load (List.replicate 56 0)).params.length ≤ 56 ∧ (Bench.sample 1).envelope.length = 48
    ∧ checkWord [5] ≠ checkWord [2] := by decide +kernel

/-- The report queue with room, and full; REPORTING OFF and ON; CLEAR_OVERFLOW. -/
theorem test_report_queue :
    let r : Record := .ret 0 0 0 .done []
    let s := fun (n : Nat) (m : Mgmt) => (Bench.unit .unset).setCmu { queue := [m], reports := List.replicate n r, overflow := false }
    (s 31 (Bench.cmd .status [])).cmu.reports.length < 32 ∧ 32 ≤ (s 32 (Bench.cmd .status [])).cmu.reports.length
    ∧ (Bench.after .clearOverflow (s 31 (Bench.cmd .clearOverflow []))).cmu.reports.length = 32
    ∧ (Bench.after .clearOverflow (s 32 (Bench.cmd .clearOverflow []))).cmu.overflow = true
    ∧ Serves .clearOverflow (Bench.cmd .clearOverflow []) (s 31 (Bench.cmd .clearOverflow []))
    ∧ Serves .reporting (Bench.cmd .reporting [1]) (s 0 (Bench.cmd .reporting [1]))
    ∧ Serves .reporting (Bench.cmd .reporting [0]) (s 0 (Bench.cmd .reporting [0]))
    ∧ (Bench.after .reporting (s 0 (Bench.cmd .reporting [0]))).rif.reporting = false := by decide +kernel

/-! ## Commands -/

/-- The tests of R166: the first and last unknown codes, a destination of 0, a count, a range. -/
theorem test_command_tests :
    let s := fun (m : Mgmt) => (Bench.unit .unset).serving m
    let odd := fun (n : BitVec 8) => { Bench.cmd .status [] with code := n }
    rowOf 0 = .unknownCommand ∧ rowOf 21 = .unknownCommand ∧ rowOf 20 = .restart
    ∧ Bench.reply .unknownCommand (s (odd 0)) = some (.unknown, []) ∧ Bench.reply .unknownCommand (s (odd 21)) = some (.unknown, [])
    ∧ Bench.reply .unknownCommand (s (odd 255)) = some (.unknown, [])
    ∧ Bench.reply .move (s { Bench.cmd .move [0] with dest := 0 }) = some (.badAddress, [])
    ∧ Bench.reply .move (s (Bench.cmd .move [])) = some (.badParam, [0])
    ∧ Bench.reply .claim (s (Bench.cmd .claim [0, 2048, 1, 65])) = some (.badParam, [1])
    ∧ Bench.reply .claim (s (Bench.cmd .claim [16, 2048, 1, 65])) = some (.badParam, [3])
    ∧ (Bench.after .status (s (Bench.cmd .move [0]))) = s (Bench.cmd .move [0]) := by decide +kernel

/-- The ends of the ranges. -/
theorem test_ranges :
    precheck .switch (Bench.cmd .switch [0x120, 10000, 0, 0, 0, 0]) = none
    ∧ precheck .switch (Bench.cmd .switch [0x130, 10, 0, 0, 0, 0]) = some { outcome := .badParam, data := [0] }
    ∧ precheck .switch (Bench.cmd .switch [0x100, 9, 0, 0, 0, 0]) = some { outcome := .badParam, data := [1] }
    ∧ precheck .switch (Bench.cmd .switch [0xC00, 9, 0, 0, 4095, 4096]) = some { outcome := .badParam, data := [5] }
    ∧ precheck .mute (Bench.cmd .mute [4095]) = none ∧ precheck .mute (Bench.cmd .mute [4096]) ≠ none
    ∧ precheck .mute (Bench.cmd .mute [65535]) = none ∧ precheck .move (Bench.cmd .move [0x117]) = none
    ∧ precheck .move (Bench.cmd .move [0x018]) ≠ none ∧ precheck .trimClear (Bench.cmd .trimClear [16]) ≠ none
    ∧ precheck .unclaim (Bench.cmd .unclaim [17]) = none ∧ precheck .scheduleHold (Bench.cmd .scheduleHold [3]) ≠ none
    ∧ precheck .reporting (Bench.cmd .reporting [2]) ≠ none ∧ precheck .claim (Bench.cmd .claim [17, 0, 2048, 64]) = none
    ∧ precheck .load (Bench.cmd .load [17, 2047, 1]) = none ∧ precheck .commit (Bench.cmd .commit [0, 65535]) = none
    ∧ precheck .commit (Bench.cmd .commit [0, 2048]) ≠ none ∧ precheck .finish (Bench.cmd .finish [18, 0]) ≠ none
    ∧ precheck .read (Bench.cmd .read [19, 2047, 48]) = none ∧ precheck .read (Bench.cmd .read [19, 2047, 49]) ≠ none
    ∧ precheck .go (Bench.cmd .go [0, 0, 0]) = none ∧ precheck .status (Bench.cmd .status []) = none
    ∧ precheck .mute { Bench.cmd .mute [4095] with dest := 0 } = none
    ∧ precheck .mute { Bench.cmd .mute [4096] with dest := 0 } = some { outcome := .badParam, data := [0] }
    ∧ precheck .move { Bench.cmd .move [0] with dest := 0 } = some { outcome := .badAddress, data := [] } := by decide +kernel

theorem test_status : Serves .status (Bench.cmd .status []) ((Bench.unit (.active 2)).serving (Bench.cmd .status []))
    ∧ QueueLaw (Bench.unit (.active 2))
    ∧ (Bench.reply .status ((Bench.unit (.active 2)).serving (Bench.cmd .status []))).map (·.2.take 9)
        = some [0x101, 0x202, 0x4142, 0x4344, 0xFFFF, 0, 0, 0xFF00, 0x11E] := by decide +kernel

/-- STATUS with nothing standing: no active slot, nothing armed, no halt (log 30). -/
theorem test_status_absent :
    (statusWords (Bench.unit .unset)).take 9 = [0x101, 0xFF01, 0, 0, 0xFFFF, 0, 0, 0xFF00, 0x11E]
    ∧ (statusWords (Bench.unit (.halted Bench.halt)))[7]? = some 0x0001 := by decide +kernel

/-- The interlock state OPEN. -/
def State.ilkOpened (s : State) : State := s.setDsy { s.dsy with ilkClosed := false }

/-- SWITCH: the checks before the frame. -/
theorem test_switch_checks :
    let s := fun (a : ArrayState) (ps : List Word) => (Bench.unit a).serving (Bench.cmd .switch ps)
    Serves .switch (Bench.cmd .switch [5, 0, 0, 0, 0, 0]) (s (.active 2) [5, 0, 0, 0, 0, 0])
    ∧ Bench.reply .switch (s (.active 2) [9, 0, 0, 0, 0, 0]) = some (.notValid, [])
    ∧ Bench.reply .switch (s (.active 2) [5, 0, 0, 0, 0, 0]).ilkOpened = some (.interlock, [])
    ∧ Bench.reply .switch (s .muting [5, 0, 0, 0, 0, 0]) = some (.busy, [])
    ∧ Bench.reply .switch (s (.active 2) [0x27, 0, 0, 0, 0, 0]) = some (.notPermitted, [])
    ∧ Bench.reply .switch (s (.active 7) [0x25, 0, 0, 0, 0, 0]) = some (.notPermitted, []) := by decide +kernel

/-- SWITCH: the frame, the request armed, and one replacing another in MUTED. -/
theorem test_switch_frames :
    let s := fun (a : ArrayState) (ps : List Word) => (Bench.unit a).serving (Bench.cmd .switch ps)
    let old := fun (x : State) => x.setArmed (some Bench.armed)
    let unnumbered := fun (x : State) => x.setTxe { x.txe with frame := none }
    Bench.reply .switch (unnumbered (s (.active 2) [5, 0, 0, 0, 0, 0])) = some (.late, [])
    ∧ Bench.reply .switch (s (.active 2) [0x205, 0, 0, 101, 0, 0]) = some (.late, [])
    ∧ Bench.reply .switch (s (.active 2) [0x205, 0, 0x8000, 100, 0, 0]) = some (.late, [])
    ∧ Bench.reply .switch (s (.active 2) [0x205, 0, 16, 101, 0, 0]) = some (.far, [])
    ∧ Bench.reply .switch (s (.active 2) [0x205, 0, 16, 100, 0, 0]) = some (.armed, [5, 16, 100])
    ∧ Bench.reply .switch (s (.active 2) [0x205, 0, 0, 102, 0, 0]) = some (.armed, [5, 0, 102])
    ∧ Bench.reply .switch (s (.active 2) [2, 0, 0, 0, 0, 0]) = some (.done, [1])
    ∧ (Bench.after .switch (s (.muted (some 2)) [5, 0, 0, 0, 0, 0])).txe.array = .muted none
    ∧ Bench.kinds .switch (old (s (.muted none) [5, 0, 0, 0, 0, 0])) = [.armedWithdrawn] := by decide +kernel

theorem test_withdraw :
    let s := fun (a : ArrayState) => (Bench.unit a).serving (Bench.cmd .withdraw [])
    Serves .withdraw (Bench.cmd .withdraw []) (s (.active 2)) ∧ EngineLaw (s (.switching Bench.context))
    ∧ (s (.switching Bench.context)).txe.array.inFlight = true
    ∧ Bench.reply .withdraw (s (.switching Bench.context)) = some (.wrongState, [])
    ∧ Bench.reply .withdraw ((s (.active 2)).setArmed (some Bench.armed)) = some (.done, [5, 0, 102]) := by decide +kernel

/-- GO by the array state, and the frame events of GO taken: before the frame, at it, past it, and a renumbering. -/
theorem test_go :
    let s := fun (a : ArrayState) (ps : List Word) => (Bench.unit a).serving (Bench.cmd .go ps)
    let up : ArrayState := .readyUp Bench.context (.awaiting 3)
    let taken := Bench.unit (.readyUp Bench.context (.taken 104))
    Serves .go (Bench.cmd .go [0, 0, 0]) (s up [0, 0, 0])
    ∧ Bench.reply .go (s up [0, 0, 0]) = some (.done, [0, 101]) ∧ Bench.reply .go (s up [1, 0, 101]) = some (.late, [])
    ∧ Bench.reply .go (s up [1, 16, 101]) = some (.far, []) ∧ Bench.reply .go (s up [1, 0, 102]) = some (.done, [0, 102])
    ∧ Bench.reply .go ((s up [0, 0, 0]).setTxe { (s up [0, 0, 0]).txe with frame := none }) = some (.late, [])
    ∧ Bench.reply .go (s (.settle Bench.context 0) [0, 0, 0]) = some (.notReady, [])
    ∧ Bench.reply .go (s (.rampUp Bench.context 0) [0, 0, 0]) = some (.wrongState, [])
    ∧ taken.txe.armed = none ∧ (frameEvent 103 false taken).txe.array = taken.txe.array
    ∧ (frameEvent 104 false taken).txe.array.code = 7 ∧ (frameEvent 105 false taken).txe.array.code = 6
    ∧ (frameEvent 103 true taken).txe.array = .readyUp Bench.context (.awaiting 0) := by decide +kernel

/-- CONTINUE: every answer. -/
theorem test_continue :
    let s := fun (a : ArrayState) => (Bench.unit a).serving (Bench.cmd .continueTx [])
    let hot := (Bench.driven (.halted Bench.halt)).serving (Bench.cmd .continueTx [])
    Serves .continueTx (Bench.cmd .continueTx []) (s (.halted Bench.halt))
    ∧ Bench.reply .continueTx (s (.active 2)) = some (.wrongState, [])
    ∧ Bench.reply .continueTx (s (.halted Bench.halt)).ilkOpened = some (.interlock, [])
    ∧ Bench.reply .continueTx hot = some (.busy, [])
    ∧ Bench.reply .continueTx (s (.halted Bench.halt)) = some (.started, [41])
    ∧ ((recRequirements ((Bench.unit .unset).recordOf 5)).map (·.1)).Nodup
    ∧ recRequirements ((Bench.unit .unset).recordOf 5) = [(0, .closed)]
    ∧ (Bench.unit .unset).ctu.units[(0 : ContactorIx)].reading.agrees .closed = false
    ∧ (Bench.after .continueTx (s (.halted Bench.halt))).txe.array.code = 4 := by decide +kernel

/-- RETREAT: every answer. -/
theorem test_retreat :
    let s := fun (a : ArrayState) => (Bench.unit a).serving (Bench.cmd .retreat [])
    let hot := (Bench.driven (.halted Bench.halt)).serving (Bench.cmd .retreat [])
    Serves .retreat (Bench.cmd .retreat []) (s (.halted Bench.halt))
    ∧ Bench.reply .retreat (s (.active 2)) = some (.wrongState, [])
    ∧ Bench.reply .retreat (s (.halted Bench.halt)).ilkOpened = some (.interlock, [])
    ∧ Bench.reply .retreat (s (.halted { Bench.halt with source := none })) = some (.wrongState, [])
    ∧ Bench.reply .retreat hot = some (.busy, [])
    ∧ Bench.reply .retreat (s (.halted Bench.halt)) = some (.started, [42]) := by decide +kernel

/-- MUTE in each kind of state, with a tower driven and with none. -/
theorem test_mute :
    let s := fun (a : ArrayState) => (Bench.unit a).serving (Bench.cmd .mute [65535])
    Serves .mute (Bench.cmd .mute [65535]) (s (.active 2))
    ∧ [s (.active 2), s (.switching Bench.context), s (.halted Bench.halt), s .unset, s .muting, s (.muted (some 2))].map
        (fun x => ((Bench.after .mute x).txe.array, Bench.reply .mute x))
      = [(.muted none, some (.done, [])), (.muted none, some (.done, [])), (.muted none, some (.done, [])),
         (.unset, some (.done, [])), (.muting, some (.done, [])), (.muted none, some (.done, []))]
    ∧ Bench.reply .mute ((Bench.driven (.active 2)).serving (Bench.cmd .mute [0])) = some (.started, [])
    ∧ (Bench.after .mute ((Bench.driven (.active 2)).serving (Bench.cmd .mute [0]))).dsy.towers[(0 : TowerIx)].order
        = .ramp { startAmp := 12288, startPhase := 11250, target := .zero, endAmp := 0, endPhase := 11250, length := 4096,
                  step := 0, manner := .hold }
    ∧ (Bench.after .mute ((s (.active 2)).setArmed (some Bench.armed))).txe.armed = none := by decide +kernel

/-! ## Contactors -/

/-- Move requests in each run state, and MOVE. -/
theorem test_move :
    let s := fun (e : Contactor) (o c : Bool) => Bench.switching (.muted none) e o c
    let hot := (Bench.driven (.muted none)).setCtu (Bench.ctu (Bench.contactor .opened .opened) true false)
    let m := Bench.cmd .move [0x100]
    (moveRequest 1 .closed (Bench.unit .unset)).2 = .notValid
    ∧ (moveRequest 0 .opened (s (Bench.contactor .opened .opened) true false)).2 = .done false
    ∧ (moveRequest 0 .closed (s (Bench.contactor .closed (.toClosed 3)) false false)).2 = .started
    ∧ (moveRequest 0 .closed hot).2 = .interlock
    ∧ (moveRequest 0 .closed (s (Bench.contactor .opened .stuck) false true)).2 = .done true
    ∧ (moveRequest 0 .closed (s (Bench.contactor .opened (.toOpen 9)) false false)).1.ctu.stateOf 0 = some (.toClosed 0)
    ∧ (moveRequest 0 .opened (s (Bench.contactor .opened .disagree) false true)).1.ctu.stateOf 0 = some (.toOpen 0)
    ∧ Serves .move m ((Bench.unit .unset).serving m) ∧ Bench.reply .move ((Bench.unit .unset).serving m) = some (.started, [])
    ∧ (Bench.after .move ((Bench.unit .unset).serving m)).ctu.line 0 = true
    ∧ Bench.reply .move ((Bench.unit (.active 2)).serving m) = some (.wrongState, [])
    ∧ Bench.reply .move (hot.serving m) = some (.interlock, []) := by decide +kernel

/-- The moves of SWITCHING: a contactor undefined, standing, travelling, started, confirmed at the take, and blocked. -/
theorem test_give_moves :
    let s := fun (e : Contactor) (o c : Bool) => Bench.switching (.rampDown Bench.context) e o c
    let hot := Bench.driven (.rampDown Bench.context)
    let x := { Bench.context with awaited := 0, moved := false }
    let run := fun (r : ContactorIx × Position) (s : State) =>
      let g := giveMoves [r] x s
      (g.1.awaited, g.1.moved, g.2.2)
    run (1, .closed) hot = (0, false, none) ∧ run (0, .opened) hot = (0, false, none)
    ∧ run (0, .closed) (s (Bench.contactor .closed (.toClosed 3)) false false) = (1, true, none)
    ∧ run (0, .closed) (s (Bench.contactor .opened .opened) true false) = (1, true, none)
    ∧ run (0, .closed) (s (Bench.contactor .opened .stuck) false true) = (0, true, none)
    ∧ run (0, .closed) hot = (0, false, some 0)
    ∧ (enterSwitching Bench.context hot).txe.array.code = 8
    ∧ (enterSwitching Bench.context (s (Bench.contactor .opened .opened) true false)).txe.array.code = 4 := by decide +kernel

/-- The exit of SWITCHING: not standing, standing with and without a contactor moved, and a travelling contactor of a tower that
will ramp from zero; a confirmed report, in SWITCHING and elsewhere. -/
theorem test_leave_switching :
    let x := { Bench.context with awaited := 1 }
    let s := fun (x : TxContext) (e : Contactor) (o c : Bool) => Bench.switching (.switching x) e o c
    let closed := Bench.contactor .closed .closed
    let two := fun (x : TxContext) => (s x closed false true).setCtu { (s x closed false true).ctu with
      units := modifyAt (s x closed false true).ctu.units 1 fun u => { u with entry := some (Bench.contactor .opened (.toOpen 9)) } }
    judgeSwitching (s x (Bench.contactor .closed (.toClosed 9)) false false) = s x (Bench.contactor .closed (.toClosed 9)) false false
    ∧ (judgeSwitching (s { x with moved := true } closed false true)).txe.array = .settle { x with moved := true } 0
    ∧ (judgeSwitching (s { x with moved := true } closed false true)).ctu.guard = some 5
    ∧ (judgeSwitching (s x closed false true)).txe.array = .readyUp x (.awaiting 0)
    ∧ judgeSwitching (two x) = two x ∧ (judgeSwitching (two { x with blend := 1 })).txe.array.code = 6
    ∧ (takeReport 0 .confirmed (s x closed false true)).txe.array = .readyUp { x with awaited := 0 } (.awaiting 0)
    ∧ takeReport 0 .confirmed (Bench.unit (.active 2)) = Bench.unit (.active 2)
    ∧ takesDrift (.switching x) = false := by decide +kernel

/-- SETTLE with a settle time of 10 ms, and of 0 (the words of an EMPTY slot). -/
theorem test_enter_settle :
    recSettle ((Bench.unit .unset).recordOf 5) = 10 ∧ recSettle ((Bench.unit .unset).recordOf 9) = 0
    ∧ (enterSettle Bench.context (Bench.unit .unset)).txe.array = .settle Bench.context 0
    ∧ (enterSettle { Bench.context with target := 9 } (Bench.unit .unset)).txe.array.code = 6
    ∧ (enterSettle { Bench.context with target := 9, joint := none } (Bench.unit .unset)).txe.array.code = 7 := by decide +kernel

/-- A line that changes at a frame's at-rest report, at an activation frame, at CONTINUE and at RETREAT. -/
theorem test_lines_change_in_rows :
    let rx := sealWords (sampleWords (Bench.sample 101))
    let armed := (Bench.unit (.active 2)).setArmed (some { Bench.armed with frame := 101 })
    (takeAtRest (Bench.unit (.rampDown Bench.context))).ctu.line 0 = true ∧ (Bench.unit .unset).ctu.line 0 = false
    ∧ (Bench.after (.sampleFrame rx) armed).ctu.line 0 = true
    ∧ (Bench.after .missedFrame armed).ctu.line 0 = true
    ∧ (Bench.after .localPaceFrame (Bench.hunting (.rampDown Bench.context))).ctu.line 0 = true
    ∧ (Bench.after .continueTx ((Bench.unit (.halted Bench.halt)).serving (Bench.cmd .continueTx []))).ctu.line 0 = true
    ∧ (Bench.after .retreat ((Bench.unit (.halted Bench.halt)).serving (Bench.cmd .retreat []))).ctu.line 0 = true := by decide +kernel

/-- A line that changes in SWITCHING, and one that a new Contactor Table lets go. -/
theorem test_lines_change_at_rest :
    let check := { Bench.unit .unset with ldu := { Ldu.reset with claims := setAt Ldu.reset.claims 16 (some
      { phase := .checking (checkWord [0]) 3, holder := 2, length := 1, segment := 64, running := 1, committed := 1 }) } }
    let closed := check.setCtu (Bench.ctu (Bench.contactor .closed .closed) false true)
    (giveMoves [(0, .closed)] Bench.context (Bench.unit .unset)).2.1.ctu.line 0 ≠ (Bench.unit .unset).ctu.line 0
    ∧ closed.ctu.line 0 = true ∧ (Bench.after (.checkCompletion 16) (closed.setPst Pst.reset)).ctu.line 0 = false
    ∧ closed.dsy.allAtRest = true := by decide +kernel

/-- An auxiliary input that starts a debounce and one that stops it. -/
theorem test_aux_input :
    ((Bench.after (.auxInputChange 0 .showsClosed true) (Bench.unit .unset)).ctu.units[(0 : ContactorIx)].closedTimer = some 0)
    ∧ (Bench.after (.auxInputChange 0 .showsOpen true) (Bench.unit .unset)).ctu.units[(0 : ContactorIx)].openTimer = none := by
  decide +kernel

/-- The unit with contactor 0 in a run state, showing two levels, and a debounce of one input about to complete. -/
def Bench.bouncing (a : ArrayState) (g : Option Slot) (e : Contactor) (o c : Bool) (i : AuxInput) : State :=
  let u := Bench.ctu e o c
  (Bench.unit a).setCtu { guard := g, units := modifyAt u.units 0 fun x =>
    { x with openLine := if i = .showsOpen then !o else o, closedLine := if i = .showsClosed then !c else c
             openTimer := if i = .showsOpen then some 20 else none, closedTimer := if i = .showsClosed then some 20 else none } }

/-- A reading that confirms a travel, that contradicts it, that leaves OPEN, STUCK and DISAGREE, and a drift from ACTIVE. -/
theorem test_readings :
    let run := fun (a : ArrayState) (g : Option Slot) (e : Contactor) (o c : Bool) (i : AuxInput) =>
      let t := Bench.after (.auxDebounceExpiry 0 i) (Bench.bouncing a g e o c i)
      (t.ctu.stateOf 0, t.txe.array.code)
    Counting (Bench.bouncing .unset none (Bench.contactor .closed (.toClosed 3)) false false .showsClosed)
    ∧ (Bench.unit .unset).ctu.units[(0 : ContactorIx)].debouncing .showsOpen = false
    ∧ run .unset none (Bench.contactor .closed (.toClosed 3)) false false .showsClosed = (some .closed, 1)
    ∧ run .unset none (Bench.contactor .closed (.toClosed 3)) true false .showsClosed = (some .disagree, 1)
    ∧ run .unset none (Bench.contactor .closed (.toClosed 3)) true false .showsOpen = (some (.toClosed 3), 1)
    ∧ run .unset none (Bench.contactor .opened .opened) true false .showsOpen = (some .disagree, 1)
    ∧ run .unset none (Bench.contactor .opened .stuck) true false .showsClosed = (some .disagree, 1)
    ∧ run .unset none (Bench.contactor .opened .stuck) true false .showsOpen = (some .stuck, 1)
    ∧ run .unset none (Bench.contactor .opened .disagree) false false .showsOpen = (some .opened, 1)
    ∧ run .unset none (Bench.contactor .opened .disagree) false false .showsClosed = (some .disagree, 1)
    ∧ run (.active 5) (some 5) (Bench.contactor .closed .closed) false true .showsClosed = (some .disagree, 8)
    ∧ isDrift (Bench.bouncing (.active 5) (some 5) (Bench.contactor .closed .closed) false true .showsClosed) 0 = true
    ∧ takesDrift (.active 5) = true := by decide +kernel

/-- A completed debounce of each input sets its own level and no other. -/
theorem test_debounced :
    let u := fun i => (Bench.bouncing .unset none (Bench.contactor .opened .opened) true false i).ctu.units[(0 : ContactorIx)]
    let x := (u .showsOpen).debounced .showsOpen
    let y := (u .showsClosed).debounced .showsClosed
    (x.openShown, x.openTimer, x.closedShown) = (false, none, false)
    ∧ (y.openShown, y.closedTimer, y.closedShown) = (true, none, true)
    ∧ (u .showsOpen).debouncing .showsOpen = true ∧ (u .showsOpen).debouncing .showsClosed = false := by decide +kernel

/-- A travel that runs out in SWITCHING and outside it; the settle and gate timers, joint and not. -/
theorem test_expiries :
    let travel := fun (a : ArrayState) => Bench.switching a (Bench.contactor .closed (.toClosed 500)) false false
    Counting (travel .unset) ∧ (Bench.after (.travelLimitExpiry 0) (Bench.unit .unset)) = Bench.unit .unset
    ∧ (Bench.after (.travelLimitExpiry 0) (travel .unset)).ctu.stateOf 0 = some .stuck
    ∧ (Bench.after (.travelLimitExpiry 0) (travel (.switching Bench.context))).txe.array.code = 8
    ∧ (Bench.after .settleTimerExpiry (Bench.unit (.settle Bench.context 10))).txe.array = .readyUp Bench.context (.awaiting 0)
    ∧ (Bench.after .settleTimerExpiry (Bench.unit (.settle { Bench.context with joint := none } 10))).txe.array.code = 7
    ∧ (Bench.after .settleTimerExpiry (Bench.unit .unset)) = Bench.unit .unset
    ∧ (Bench.after .gateTimerExpiry (Bench.unit (.readyUp Bench.context (.awaiting 10)))).txe.array.code = 8
    ∧ (Bench.after .gateTimerExpiry (Bench.unit (.active 2))) = Bench.unit (.active 2) := by decide +kernel

/-! ## Interlock and cabinets -/

/-- What the entry to MUTED or HALTED by an opening or a loss leaves of MON and SCU, and what stays where the array stays. -/
theorem test_mon_and_scu_at_a_stop :
    let due := fun (a : ArrayState) => Bench.scheduled a false (some (Bench.due 0)) none
    (∀ i ∈ [Instr.interlockOpening, .lossTimerExpiry], ∀ a ∈ [ArrayState.active 2, .switching Bench.context, .muting],
      let t := Bench.after i (due a)
      (due a).dsy.ilkClosed = true ∧ t.mon = (due a).mon.leaveActive ∧ t.scu = { (due a).scu with deferred := none })
    ∧ (∀ i ∈ [Instr.interlockOpening, .lossTimerExpiry], ∀ a ∈ [ArrayState.unset, .muted (some 2), .halted Bench.halt],
      let t := Bench.after i (due a)
      t.mon = (due a).mon ∧ t.scu = (due a).scu ∧ t.ctu = (due a).ctu) := by decide +kernel

theorem test_interlock :
    let opened := fun (x : State) => x.setDsy { x.dsy with ilkClosed := false, ilkTimer := some 100 }
    [ArrayState.active 2, .switching Bench.context, .muting, .muted (some 2), .unset, .halted Bench.halt].map (fun a =>
        (Bench.after .interlockOpening (Bench.unit a)).txe.array.code) = [10, 8, 10, 10, 1, 8]
    ∧ (Bench.unit (.active 2)).dsy.ilkClosed = true ∧ (Bench.unit (.active 2)).cmu.reports.length < 32
    ∧ (Bench.after .interlockLineClosed State.reset).dsy.ilkTimer = some 0
    ∧ (Bench.after .interlockLineClosed (Bench.unit .unset)).dsy.ilkTimer = none
    ∧ Counting (opened (Bench.unit .unset)) ∧ (Bench.after .interlockQualified (opened (Bench.unit .unset))).dsy.ilkClosed = true
    ∧ Bench.after .interlockQualified (Bench.unit .unset) = Bench.unit .unset := by decide +kernel

theorem test_cabinets :
    let losing := fun (a : ArrayState) => (Bench.unit a).setDsy { (Bench.unit a).dsy with
      towers := modifyAt (Bench.unit a).dsy.towers 0 fun x => { x with rdyLine := false, debounce := some 10 } }
    let gaining := State.reset.setDsy { Dsy.reset with
      towers := modifyAt Dsy.reset.towers 0 fun x => { x with rdyLine := true, debounce := some 10 } }
    (Bench.after (.rdyLineChange 0 false) (Bench.unit .unset)).dsy.towers[(0 : TowerIx)].debounce = some 0
    ∧ Counting (losing .unset) ∧ Bench.kinds (.cabinetDebounceExpiry 0) (losing .unset) = [.cabinetFault]
    ∧ has (recTowers ((losing .unset).recordOf 5)) 0 = true
    ∧ (Bench.after (.cabinetDebounceExpiry 0) (losing (.rampUp Bench.context 0))).txe.array.code = 8
    ∧ (Bench.after (.cabinetDebounceExpiry 0) gaining).dsy.towers[(0 : TowerIx)].ready = true
    ∧ Bench.after (.cabinetDebounceExpiry 0) (Bench.unit .unset) = Bench.unit .unset := by decide +kernel

/-! ## Monitoring -/

/-- A monitor record of sequence q: tower 0's magnitude at 245.20°, the external reference's at 10.00° (06, 6.8). -/
def Bench.record9 (q : BitVec 8) (mag ref : Word) : MonRecord :=
  { seq := q, flags := 257, data := [mag, 24520] ++ List.replicate 14 0 ++ [ref, 1000] }

/-- The same on the port. -/
def Bench.monIn (q : BitVec 8) (mag ref : Word) : Instr :=
  .monitorRecord (sealWords (q.setWidth 16 :: 257 :: (Bench.record9 q mag ref).data))

/-- What a record does to tower 0's trim and status (06, 6.8: magnitudes 19300 and 19803), and each way it is not evaluated. -/
theorem test_monitor_records :
    let run := fun (i : Instr) (s : State) =>
      let t := Bench.after i s
      ((t.pst.trim 2 0).amp, t.mon.towers[(0 : TowerIx)].status)
    let s := Bench.unit (.active 2)
    parseMonRecord (sealWords (10 :: 257 :: (Bench.record9 10 1 1).data)) = some (Bench.record9 10 1 1)
    ∧ (Bench.record9 10 1 1).data.length = 18 ∧ (Bench.record9 10 1 1).channelValid 8 = true
    ∧ run (Bench.monIn 10 19300 40000) s = (16, .inTol) ∧ run (Bench.monIn 10 19803 40000) s = (0, .inTol)
    ∧ run (Bench.monIn 10 18000 40000) s = (16, .out) ∧ run (Bench.monIn 9 19300 40000) s = (0, .held)
    ∧ run (Bench.monIn 10 500 1024) s = (16, .inTol) ∧ run (Bench.monIn 10 500 1023) s = (0, .held)
    ∧ run (Bench.monIn 10 19300 40000) (s.setMon { s.mon with holdOff := some 0 }) = (0, .held)
    ∧ run (Bench.monIn 10 19300 40000) (Bench.unit .unset) = (0, .held)
    ∧ Bench.kinds (Bench.monIn 10 1 1) State.reset = [.unitStarted, .monitorPresent] ∧ parseMonRecord Bench.failed = none := by decide +kernel

/-- The fields of a monitor record in its words (11.5), and one of another length. -/
theorem test_monitor_record_fields :
    let r := (parseMonRecord (sealWords ((List.range 20).map fun k => word (256 + k))))
    r.map (fun x => (x.seq, x.flags, x.magnitude 0, x.phase 0, x.magnitude 8, x.phase 8))
      = some (0, 257, 258, 259, 274, 275)
    ∧ parseMonRecord (sealWords (List.replicate 19 0)) = none ∧ checkedWords Bench.failed = none := by decide +kernel

theorem test_monitor_timers :
    let s := (Bench.unit (.active 2)).setScu { Scu.reset with clock := .set Bench.date 1, stale := some 10000 }
    Counting s ∧ s.mon.present = true ∧ s.mon.absence ≠ none ∧ s.mon.lastSeq = some 9
    ∧ Bench.kinds .absenceTimerExpiry s = [.monitorAbsent] ∧ Bench.kinds .absenceTimerExpiry State.reset = [.unitStarted]
    ∧ (Bench.after .holdOffExpiry (s.setMon { s.mon with holdOff := some 3000 })).mon.holdOff = none
    ∧ (Bench.after .staleTimerExpiry s).scu.clock = .stale Bench.date 1
    ∧ Bench.after .staleTimerExpiry State.reset = State.reset := by decide +kernel

/-- The unit in ACTIVE(2) with tower 0's tolerance and the fallback-spent flag as given. -/
def Bench.tolerance (st : Tolerance) (n : Nat) (spent : Bool) : State :=
  let s := Bench.unit (.active 2)
  s.setMon { s.mon with spent := spent, towers := setAt s.mon.towers 0 { status := st, count := n, limitNoticed := false } }

/-- The rows of the tolerance table, and the fault action by each answer. -/
theorem test_tolerance :
    let w := (Bench.unit .unset).recordOf 2
    let judge := fun (r : Nat) (s : State) =>
      let t := judgeTower w 0 r (-12480) 10 s
      (t.mon.towers[(0 : TowerIx)].status, t.mon.towers[(0 : TowerIx)].count, t.cmu.reports.length)
    recGrace w = 3 ∧ recGrace (fun _ => 1) = 1 ∧ judge 7905 (Bench.tolerance .out 0 false) = (.inTol, 0, 0)
    ∧ judge 7782 (Bench.tolerance .out 0 false) = (.out, 1, 0) ∧ judge 7905 (Bench.tolerance .out 2 false) = (.inTol, 0, 0) ∧ judge 7783 (Bench.tolerance .fault 3 false) = (.inTol, 0, 1)
    ∧ judge 7782 (Bench.tolerance .fault 3 false) = (.fault, 3, 0) ∧ judge 7782 (Bench.tolerance .inTol 0 false) = (.out, 1, 0)
    ∧ judge 7782 (Bench.tolerance .out 1 false) = (.out, 2, 0) ∧ judge 7782 (Bench.tolerance .out 2 false) = (.fault, 3, 1)
    ∧ (takeFaultAction ((Bench.unit .unset).recordOf 5) (Bench.tolerance .out 2 false)).2 = .reported
    ∧ (takeFaultAction w (Bench.tolerance .out 2 true)).2 = .skippedSpent
    ∧ (takeFaultAction w (Bench.tolerance .out 2 false)).2 = .fallback
    ∧ (takeFaultAction w (Bench.tolerance .out 2 false)).1.mon.spent = true
    ∧ (takeFaultAction w ((Bench.tolerance .out 2 false).setArmed (some Bench.armed))).2 = .skippedArmed
    ∧ (takeFaultAction w (Bench.tolerance .out 2 false).ilkOpened).2 = .skippedInterlock
    ∧ (takeFaultAction w ((Bench.tolerance .out 2 false).setPst
        (Bench.pst.setEntry 7 .empty))).2 = .failedNotValid
    ∧ (takeFaultAction w (Bench.unit .muting)).2 = .skippedState := by decide +kernel

theorem test_ack_fault :
    let s := (Bench.tolerance .fault 3 true).serving (Bench.cmd .ackFault [])
    Serves .ackFault (Bench.cmd .ackFault []) s ∧ Bench.reply .ackFault s = some (.done, [1])
    ∧ (Bench.after .ackFault s).mon.towers[(0 : TowerIx)] = { status := .out, count := 0, limitNoticed := false } := by
  decide +kernel

/-- The unit in ACTIVE(2) with tower 0's trim as given. -/
def Bench.trimmed (a p : Int) : State :=
  let s := Bench.unit (.active 2)
  s.setPst { s.pst with trims := setAt s.pst.trims 2 (setAt s.pst.trims[(2 : Slot)] 0 { amp := a, phase := p }) }

/-- A trim step within the bounds, one cut at the bound, one at the limit of each quantity, one to a slot that is not VALID,
and TRIM_CLEAR. -/
theorem test_trim :
    let w := (Bench.unit .unset).recordOf 2
    let step_ := fun (r : Nat) (m : Int) (s : State) =>
      let t := trimTower w 2 0 r m s
      (t.pst.trim 2 0, t.cmu.reports.length)
    let clear := (Bench.trimmed 320 (-100)).serving (Bench.cmd .trimClear [2])
    recTrimOn w = true ∧ recReference w ≠ some 0 ∧ recTrimOn ((Bench.unit .unset).recordOf 7) = false
    ∧ Bench.pst.isValid 2 = true ∧ Bench.pst.isValid 9 = false
    ∧ step_ 7905 (-12480) (Bench.trimmed 0 0) = ({ amp := 16, phase := 0 }, 0)
    ∧ step_ 8111 (-12480) (Bench.trimmed 0 0) = ({ amp := 0, phase := 0 }, 0)
    ∧ step_ 8110 (-12449) (Bench.trimmed 310 (-99)) = ({ amp := 320, phase := -100 }, 0)
    ∧ step_ 8110 (-12450) (Bench.trimmed 320 0) = ({ amp := 320, phase := 0 }, 1)
    ∧ step_ 8192 (-12400) (Bench.trimmed 0 (-100)) = ({ amp := 0, phase := -100 }, 1)
    ∧ Serves .trimClear (Bench.cmd .trimClear [2]) clear
    ∧ (Bench.after .trimClear clear).pst.trim 2 0 = { amp := 0, phase := 0 } := by decide +kernel

/-! ## Loading -/

/-- The unit with slot 9 LOADING: base 128, length 62, segments of 32, held by controller 2, and the buffer given. -/
def Bench.loading (running committed : Nat) (buf : Option LoadBuffer) : State :=
  let s := Bench.unit .unset
  { s with
    pst := s.pst.setEntry 9 (.loading 128 62 2)
    ldu := { s.ldu with
      buf := buf
      claims := setAt s.ldu.claims 9 (some { phase := .loading 5, holder := 2, length := 62, segment := 32, running := running,
                                             committed := committed }) } }

/-- Words 1 to n from an offset. -/
def Bench.words (n : Nat) : List Word := (List.range n).map fun k => word (k + 1)

/-- The buffer of a target with n words from an offset. -/
def Bench.buffer (t : Target) (start n : Nat) : Option LoadBuffer := some { owner := t, start := start, words := Bench.words n }

/-- Slot 9 CHECKING its content against an expected value. -/
def Bench.checking (e : Word) (committed : Nat) (ws : List Word) : State :=
  let s := Bench.unit .unset
  { s with
    pst := { s.pst.setEntry 9 (.checking 128 25 2) with store := s.pst.store ++ Bench.memory 128 ws }
    ldu := { s.ldu with claims := setAt s.ldu.claims 9 (some { phase := .checking e 40, holder := 2, length := 25, segment := 64,
                                                               running := 25, committed := committed }) } }

/-- The laws of the store and of loading hold. -/
def Bench.lawful (s : State) : Bool := decide (InUseLaw s) && decide (LoadLaw s) && decide (StoreLaw s)

/-- CLAIM: every answer, with regions that meet and that just do not. -/
theorem test_claim :
    let s := fun (x : State) (ps : List Word) => x.serving (Bench.cmd .claim ps)
    let u := Bench.unit (.active 2)
    Serves .claim (Bench.cmd .claim [9, 75, 1973, 0]) (s u [9, 75, 1973, 0])
    ∧ Bench.reply .claim (s u [9, 75, 1973, 0]) = some (.done, [1973, 64])
    ∧ Bench.reply .claim (s u [9, 75, 1974, 0]) = some (.range, []) ∧ Bench.reply .claim (s u [9, 74, 5, 0]) = some (.overlap, [7])
    ∧ Bench.reply .claim (s u [16, 0, 74, 0]) = some (.range, []) ∧ Bench.reply .claim (s u [16, 0, 73, 0]) = some (.done, [73, 64])
    ∧ Bench.reply .claim (s u [17, 0, 146, 0]) = some (.range, []) ∧ Bench.reply .claim (s u [17, 0, 145, 1]) = some (.done, [145, 1]) := by
  decide +kernel

/-- CLAIM by the claim record and the in-use set. -/
theorem test_claim_records :
    let s := fun (x : State) (ps : List Word) => x.serving (Bench.cmd .claim ps)
    Bench.reply .claim (s (Bench.unit (.active 2)) [2, 75, 5, 0]) = some (.inUse, [])
    ∧ Bench.reply .claim (s (Bench.loading 20 0 none) [9, 128, 1, 0]) = some (.done, [1, 64])
    ∧ Bench.reply .claim ((Bench.loading 20 0 none).serving (Bench.cmd3 (Bench.cmd .claim [9, 128, 1, 0]))) = some (.heldBy, [2])
    ∧ Bench.reply .claim (s (Bench.checking 0 25 []) [9, 128, 1, 0]) = some (.wrongState, []) := by decide +kernel

/-- LOAD: every answer, with the segment of the spec's example (08, 8.11), the last word of a region, and one past it. -/
theorem test_load :
    let s := fun (x : State) (off n : Nat) => x.serving (Bench.cmd .load (9 :: word off :: Bench.words n))
    let held := Bench.loading 20 0 (Bench.buffer 9 0 20)
    Serves .load (Bench.cmd .load (9 :: 20 :: Bench.words 20)) (s held 20 20)
    ∧ Bench.lawful (s held 20 20) = true
    ∧ Bench.reply .load (s held 20 20) = some (.done, [40, 32, 1])
    ∧ (Bench.after .load (s held 20 20)).ldu.buf = some { owner := 9, start := 32, words := (Bench.words 20).drop 12 }
    ∧ Bench.reply .load (s held 40 22) = some (.offset, [20, 0])
    ∧ Bench.reply .load (s held 20 42) = some (.done, [62, 32, 1]) ∧ Bench.reply .load (s held 20 43) = some (.range, [62])
    ∧ Bench.reply .load (s (Bench.loading 20 20 (Bench.buffer 16 0 1)) 20 1) = some (.bufferBusy, [16])
    ∧ Bench.reply .load (s (Bench.unit .unset) 0 1) = some (.notClaimed, [])
    ∧ Bench.reply .load (s (Bench.checking 0 25 []) 0 1) = some (.wrongState, [])
    ∧ Bench.reply .load (held.serving (Bench.cmd3 (Bench.cmd .load [9, 20, 1]))) = some (.heldBy, [2]) := by decide +kernel

/-- COMMIT: with and without buffered words, and its resume offset at its bound and above it. -/
theorem test_commit :
    let s := fun (x : State) (r : Word) => x.serving (Bench.cmd .commit [9, r])
    let held := Bench.loading 62 32 (Bench.buffer 9 32 30)
    Serves .commit (Bench.cmd .commit [9, 65535]) (s held 65535)
    ∧ Bench.lawful (s held 65535) = true
    ∧ Bench.reply .commit (s held 65535) = some (.done, [62, 62]) ∧ Bench.reply .commit (s held 62) = some (.done, [62, 62])
    ∧ Bench.reply .commit (s held 63) = some (.offset, [62, 32])
    ∧ Bench.reply .commit (s (Bench.loading 62 62 none) 42) = some (.empty, [42, 62])
    ∧ Bench.reply .commit (s (Bench.loading 62 62 none) 63) = some (.offset, [62, 62])
    ∧ Bench.reply .commit (s (Bench.unit .unset) 0) = some (.notClaimed, [])
    ∧ Bench.reply .commit (s (Bench.checking 0 25 []) 0) = some (.wrongState, [])
    ∧ Bench.reply .commit (held.serving (Bench.cmd3 (Bench.cmd .commit [9, 0]))) = some (.heldBy, [2]) := by decide +kernel

/-- Target 16 LOADING a table of no entries, in the given array state, with contactor 0 required by VALID slots or not. -/
def Bench.staging (a : ArrayState) (p : Pst) : State :=
  let s := Bench.unit a
  { s with
    pst := p
    ldu := { s.ldu with claims := setAt s.ldu.claims 16 (some { phase := .loading 5, holder := 2, length := 1, segment := 64,
                                                                running := 1, committed := 1 }) } }

/-- FINISH: with and without buffered words, and target 16 on the air, with a contactor missing, and allowed. -/
theorem test_finish :
    let s := fun (x : State) (t : Word) => x.serving (Bench.cmd .finish [t, 77])
    let held := Bench.loading 62 32 (Bench.buffer 9 32 30)
    Serves .finish (Bench.cmd .finish [9, 77]) (s held 9)
    ∧ Bench.lawful (s held 9) = true
    ∧ Bench.reply .finish (s held 9) = some (.started, [62])
    ∧ (Bench.after .finish (s held 9)).pst.dir[(9 : Slot)] = .checking 128 62 2
    ∧ Bench.reply .finish (s (Bench.loading 20 20 none) 9) = some (.started, [20])
    ∧ Bench.reply .finish (s (Bench.staging (.active 2) Bench.pst) 16) = some (.wrongState, [])
    ∧ Bench.reply .finish (s (Bench.staging .unset Bench.pst) 16) = some (.referenced, [2, 0])
    ∧ Bench.reply .finish (s (Bench.staging .unset Pst.reset) 16) = some (.started, [1])
    ∧ Bench.lawful (s (Bench.staging .unset Pst.reset) 16) = true
    ∧ Bench.reply .finish (s (Bench.unit .unset) 9) = some (.notClaimed, [])
    ∧ Bench.reply .finish (s (Bench.checking 0 25 []) 9) = some (.wrongState, [])
    ∧ Bench.reply .finish (held.serving (Bench.cmd3 (Bench.cmd .finish [9, 0]))) = some (.heldBy, [2]) := by decide +kernel

/-- The staged table with buffered words of target 16, and of another; what it defines; the first contactor missing. -/
theorem test_staged_table :
    let s := Bench.staging .unset Bench.pst
    let with_ := fun (t : Target) => s.setLdu { s.ldu with buf := Bench.buffer t 1 3 }
    let w := fun k => ([1, 7, 0, 20] : List Word).getD k 0
    (List.range 5).map (stagedView (with_ 16)) = [0, 1, 2, 3, 0] ∧ (List.range 5).map (stagedView (with_ 17)) = [0, 0, 0, 0, 0]
    ∧ definedIn w 7 = true ∧ definedIn w 8 = false ∧ definedIn (fun _ => 0) 0 = false
    ∧ missingReference w s = some (2, 0) ∧ missingReference w (Bench.staging .unset Pst.reset) = none := by decide +kernel

theorem test_unclaim_and_lapse :
    let s := fun (x : State) => x.serving (Bench.cmd .unclaim [9])
    let held := Bench.loading 62 32 (Bench.buffer 9 32 30)
    Serves .unclaim (Bench.cmd .unclaim [9]) (s held) ∧ Counting held
    ∧ Bench.reply .unclaim (s held) = some (.done, [32]) ∧ (Bench.after .unclaim (s held)).ldu.buf = none
    ∧ Bench.reply .unclaim (s (Bench.unit .unset)) = some (.notClaimed, [])
    ∧ Bench.reply .unclaim (held.serving (Bench.cmd3 (Bench.cmd .unclaim [9]))) = some (.heldBy, [2])
    ∧ (Bench.after (.claimLapse 9) held).pst.dir[(9 : Slot)] = .empty
    ∧ Bench.after (.claimLapse 9) (Bench.checking 0 25 []) = Bench.checking 0 25 []
    ∧ Bench.after (.claimLapse 9) (Bench.unit .unset) = Bench.unit .unset := by decide +kernel

/-- READ: each target, the last word of a region and one beyond it. -/
theorem test_read :
    let s := fun (t off n : Word) => (Bench.unit (.active 2)).serving (Bench.cmd .read [t, off, n])
    Serves .read (Bench.cmd .read [2, 23, 2]) (s 2 23 2)
    ∧ Bench.reply .read (s 2 23 2) = some (.done, [1, 256]) ∧ Bench.reply .read (s 2 24 2) = some (.range, [256, 0])
    ∧ Bench.reply .read (s 9 0 1) = some (.wrongState, []) ∧ Bench.reply .read (s 16 0 4) = some (.done, [1, 0, 0, 500])
    ∧ Bench.reply .read (s 17 0 1) = some (.done, [0]) ∧ Bench.reply .read (s 18 0 2) = some (.done, [41, 257])
    ∧ Bench.reply .read (s 18 11 2) = some (.range, [0, 0]) ∧ Bench.reply .read (s 19 255 1) = some (.done, [0])
    ∧ Bench.reply .read (s 19 255 2) = some (.range, [0, 0])
    ∧ Bench.reply .read ((Bench.trimmed 320 (-100)).serving (Bench.cmd .read [19, 32, 2])) = some (.done, [320, 65436]) := by
  decide +kernel

/-- The live tables and a history record in words. -/
theorem test_table_words :
    let u := { Ctu.reset with units := setAt (setAt Ctu.reset.units 23 { ContactorUnit.reset with
      entry := some { Bench.contactor .opened .opened with assoc := .common } }) 4 { ContactorUnit.reset with
      entry := some { Bench.contactor .opened .opened with assoc := .tower 7, limit := 5000 } } }
    let h := { Bench.history .completed (some 0x10002) with mode := .blend, joint := true, halts := 255, source := none }
    u.tableWords = [2, 4, 7, 5000, 23, 255, 500]
    ∧ { Scu.reset with table := Bench.table }.tableWords
      = [4, 256, 4095, 10 + 4096 * 5, 257, 4095, 5 + 4096 * 2, 258 + 4096 * 2, 4095, 1439 + 4096 * 7, 259, 4095, 4096 * 9]
    ∧ h.words = [41, 1 + 16 + 32 + 256, 255 + 256 * 5, 0x4142, 0x4344, 0, 10, 1, 2, 32768 + 255, 0, 0] := by decide +kernel

/-- The completion of a check: content made live, a value that differs, a length and an item that fail. -/
theorem test_check_completion :
    let run := fun (s : State) =>
      let t := Bench.after (.checkCompletion 9) s
      (t.pst.dir[(9 : Slot)].isValid, t.cmu.reports.map fun
        | .notice _ _ _ _ d => d.take 1
        | .ret _ _ _ _ d => d)
    let good := Bench.record 272 7
    let bad := Bench.record 275 7
    let v := checkWord good
    run (Bench.checking v 25 good) = (true, [[1]]) ∧ run (Bench.checking (v + 1) 25 good) = (false, [[2]])
    ∧ run (Bench.checking v 24 good) = (false, [[259]]) ∧ run (Bench.checking (checkWord bad) 25 bad) = (false, [[515]])
    ∧ (Bench.checking v 25 good).ldu.claims[(9 : Target)].isSome = true
    ∧ Bench.after (.checkCompletion 9) (Bench.loading 20 0 none) = Bench.loading 20 0 none
    ∧ Bench.after (.checkCompletion 9) (Bench.unit .unset) = Bench.unit .unset := by decide +kernel

/-- The completion of the check of a Contactor Table (allowed, on the air, a contactor missing) and of a Schedule Table. -/
theorem test_table_completion :
    let with_ := fun (x : Target) (n : Nat) (s : State) => s.setLdu { s.ldu with claims := setAt s.ldu.claims x (some
      { phase := .checking (checkWord [0]) 40, holder := 2, length := n, segment := 64, running := n, committed := n }) }
    let kinds := fun (x : Target) (s : State) => (Bench.after (.checkCompletion x) s).cmu.reports.map fun
      | .notice _ _ _ _ d => d.take 1
      | .ret _ _ _ _ d => d
    kinds 16 (with_ 16 1 ((Bench.unit .unset).setPst Pst.reset)) = [[1]] ∧ kinds 16 (with_ 16 1 (Bench.unit (.active 2))) = [[4]]
    ∧ kinds 16 (with_ 16 1 (Bench.unit .unset)) = [[5]] ∧ kinds 17 (with_ 17 1 (Bench.unit (.active 2))) = [[1]]
    ∧ (Bench.after (.checkCompletion 16) (with_ 16 1 ((Bench.unit .unset).setPst Pst.reset))).ctu.units[(0 : ContactorIx)].entry
        = none := by decide +kernel

theorem test_pattern_items : firstFailure (patternItems 9 (Bench.unit .unset).ctu ((Bench.unit .unset).recordOf 2)) = none
    ∧ (firstFailure (patternItems 7 (Bench.unit .unset).ctu ((Bench.unit .unset).recordOf 2))).map (·.number) = some 13
    ∧ (firstFailure (patternItems 9 Ctu.reset ((Bench.unit .unset).recordOf 2))).map (·.number) = some 28 := by decide +kernel

/-- A staged Contactor Table: contactor 0 kept in travel, contactor 1 new and reading NEITHER, and contactor 0 removed. -/
theorem test_replace_contactors :
    let w := fun k => ([2, 1, 255, 20, 0, 3, 5000] : List Word).getD k 0
    let s := Bench.switching .unset (Bench.contactor .closed (.toClosed 9)) false false
    let t := replaceContactors w s
    t.ctu.units[(0 : ContactorIx)].entry = some { assoc := .tower 3, limit := 5000, commanded := .closed, state := .disagree }
    ∧ t.ctu.units[(1 : ContactorIx)].entry = some { assoc := .common, limit := 20, commanded := .opened, state := .disagree }
    ∧ t.cmu.reports = [.notice .contactorDisagree (some 100) (some 0) none [1, 3, 4], .notice .contactorDisagree (some 100) (some 1) none [0, 3, 0]]
    ∧ (replaceContactors (fun _ => 0) s).ctu.units[(0 : ContactorIx)].entry = none
    ∧ (replaceContactors w (Bench.unit .unset)).ctu.stateOf 0 = some .opened
    ∧ [replacement w (Bench.unit (.active 2)), replacement (fun _ => 0) (Bench.unit .unset), replacement w (Bench.unit .unset)]
      = [.wrongState, .referenced 2 0, .allowed] := by decide +kernel

/-- A staged Schedule Table of one entry, with a deferred entry of the table replaced. -/
theorem test_replace_schedule :
    let w := fun k => ([1, 47 + 256 + 4096 * 2, 0x801, 1439 + 4096 * 15] : List Word).getD k 0
    let t := replaceSchedule w (Bench.scheduled (.active 2) false (some (Bench.due 0)) none)
    t.scu.table[(47 : EntryIx)] = some { enabled := true, months := 0x801, minute := 1439, target := 15, mode := .blend, lastFired := none }
    ∧ t.scu.table[(0 : EntryIx)] = none ∧ t.scu.deferred = none
    ∧ t.cmu.reports = [.notice .scheduleDue (some 100) (some 0) none [word (6 + 256 * 9), 5, word Bench.date.days, 0]] := by
  decide +kernel

/-- The first failing row of each table, at its offset. -/
theorem test_table_items :
    let at_ := fun (is : List Item) => (firstFailure is).map fun i => (i.number, i.offset)
    let w := fun (ws : List Word) (k : Nat) => ws.getD k 0
    at_ (contactorTableItems (w [25])) = some (1, 0) ∧ at_ (contactorTableItems (w [1, 24, 8, 19])) = some (2, 1)
    ∧ at_ (contactorTableItems (w [2, 4, 7, 20, 4, 0, 20])) = some (3, 4) ∧ at_ (contactorTableItems (w [1, 4, 8, 20])) = some (4, 2)
    ∧ at_ (contactorTableItems (w [1, 4, 255, 19])) = some (5, 3) ∧ at_ (contactorTableItems (w [1, 4, 255, 5000])) = none
    ∧ at_ (scheduleTableItems (w [49])) = some (1, 0) ∧ at_ (scheduleTableItems (w [1, 48, 1, 0])) = some (2, 1)
    ∧ at_ (scheduleTableItems (w [1, 512, 1, 0])) = some (4, 1) ∧ at_ (scheduleTableItems (w [1, 0, 4096, 0])) = some (5, 2)
    ∧ at_ (scheduleTableItems (w [1, 0, 4095, 1440])) = some (6, 3) ∧ at_ (scheduleTableItems (w [1, 0x3000, 1, 0])) = some (7, 1)
    ∧ (firstFailure (scheduleTableItems (w [2, 256, 3, 9, 257, 2, 9]))).map (·.number) = some 8
    ∧ at_ (patternItems 9 (Bench.unit .unset).ctu (w (Bench.record 272 7 ++ [256]))) = none
    ∧ at_ (patternItems 9 (Bench.unit .unset).ctu (w ([41217, 0x4142, 0x4320] ++ (Bench.record 272 7).drop 3))) = none
    ∧ at_ (patternItems 9 (Bench.unit .unset).ctu (w ([41217, 0x4142, 0x431F] ++ (Bench.record 272 7).drop 3))) = some (2, 2) := by
  decide +kernel

/-! ## Drive -/

/-- A ramp of the spec's table (02, 2.3). -/
def Bench.ramp (s e L k : Nat) (p q : Nat) (m : PhaseManner) : Tower :=
  { Tower.reset with
    amp := s, phase := p
    order := .ramp { startAmp := s, startPhase := p, target := if e = 0 then .zero else .pattern 2, endAmp := e, endPhase := q,
                     length := L, step := k - 1, manner := m } }

/-- The rows of the spec's table of ramp steps, and its two examples of applied values. -/
theorem test_ramps :
    let at_ := fun (x : Tower) => (((x.advance Bench.pst 0).1.amp, (x.advance Bench.pst 0).1.phase), (x.advance Bench.pst 0).2)
    at_ (Bench.ramp 0 18432 400 1 0 11250 .jump) = ((46, 11250), none)
    ∧ at_ (Bench.ramp 0 18432 400 200 0 11250 .jump) = ((9216, 11250), none)
    ∧ at_ (Bench.ramp 0 18432 400 400 0 11250 .jump) = ((18432, 11250), some (.pattern 2))
    ∧ at_ (Bench.ramp 18432 8192 100 40 11250 30000 .arc) = ((14336, 4350), none)
    ∧ at_ (Bench.ramp 18432 8192 100 100 11250 30000 .arc) = ((8192, 30000), some (.pattern 2))
    ∧ at_ (Bench.ramp 6912 0 256 128 777 0 .hold) = ((3456, 777), none)
    ∧ at_ { Tower.reset with order := .follow 2 } = ((12288, 11250), none)
    ∧ min 65536 (roundDiv ((40000 + 320) * 16384) 32768) = 20160 ∧ (2000 - 46 : Int) % 36000 = 1954
    ∧ roundDiv 1 2 = 1 ∧ roundDivInt (-1) 2 = -1 ∧ fold 18000 = 18000 ∧ fold (-18000) = 18000 ∧ fold 18001 = -17999 := by
  decide +kernel

/-- A pattern order taken, and discarded with the interlock open and at the local pace. -/
theorem test_pattern_orders :
    let d := (Bench.unit .unset).dsy
    (d.orderPattern Bench.pst 2 200 0).towers[(0 : TowerIx)].order
      = .ramp { startAmp := 0, startPhase := 0, target := .pattern 2, endAmp := 12288, endPhase := 11250, length := 200, step := 0,
                manner := .jump }
    ∧ Dsy.reset.orderPattern Bench.pst 2 200 0 = Dsy.reset
    ∧ (Bench.unit .unset).ilkOpened.dsy.orderPattern Bench.pst 2 200 0 = (Bench.unit .unset).ilkOpened.dsy := by decide +kernel

/-! ## Transitions -/

/-- The frame events of an Armed Request: a renumbering, before its frame, past it, and at it with a tower driven and with
none. -/
theorem test_frame_events :
    let s := (Bench.unit (.active 2)).setArmed (some Bench.armed)
    let hot := (Bench.driven (.active 2)).setArmed (some Bench.armed)
    s.txe.armed = some Bench.armed
    ∧ (frameEvent 102 true s).txe.armed = none ∧ (frameEvent 103 false s).txe.armed = none
    ∧ (frameEvent 101 false s).txe.armed = some Bench.armed
    ∧ (frameEvent 102 false s).txe.array.code = 4 ∧ (frameEvent 102 false hot).txe.array.code = 3
    ∧ (frameEvent 102 false hot).txe.history.map (fun h => (h.seq, h.outcome)) = [(42, .opened), (41, .completed)]
    ∧ (frameEvent 102 false hot).txe.array.context.map (fun c => (c.unsettled, c.moving, c.switched)) = some (1, 1, 1) := by
  decide +kernel

/-- A frame event with nothing to examine sets TXE's frame number alone, a renumbering too. -/
theorem test_frame_event_alone :
    ∀ a ∈ [ArrayState.unset, .active 2, .readyUp Bench.context (.awaiting 3), .halted Bench.halt, .muted none],
      let s := Bench.unit a
      s.txe.armed = none ∧ frameEvent 107 true s = s.setTxe { s.txe with frame := some 107 } := by decide +kernel

/-- At-rest changes in RAMP_DOWN, with a tower driven outside the blend set and inside it, and in the states that ignore
them; ramp-ended reports outside RAMP_UP. -/
theorem test_at_rest_changes :
    let blend := { Bench.context with blend := 1 }
    takeAtRest (Bench.driven (.rampDown Bench.context)) = Bench.driven (.rampDown Bench.context)
    ∧ takeAtRest (Bench.driven (.rampDown blend)) = enterSwitching blend (Bench.driven (.rampDown blend))
    ∧ (takeAtRest (Bench.driven (.rampDown blend))).txe.array.code ≠ 3
    ∧ (∀ a ∈ [ArrayState.unset, .active 2, .switching Bench.context, .settle Bench.context 1,
        .readyUp Bench.context (.taken 104), .rampUp Bench.context 1, .muted (some 2)],
      takeAtRest (Bench.unit a) = Bench.unit a)
    ∧ takeRampEnds [(0, .pattern 5)] (Bench.unit (.switching Bench.context)) = Bench.unit (.switching Bench.context) := by
  decide +kernel

/-- RAMP_UP: a cabinet not ready, all ready, the last ramp ended and one still running; the pattern's hold-off at ACTIVE. -/
theorem test_ramp_up :
    let cold := (Bench.unit (.settle Bench.context 10)).setDsy { Dsy.reset with localPace := false, ilkClosed := true }
    let up := Bench.unit (.rampUp Bench.context 0)
    (startRampUp Bench.context cold).txe.array.code = 8
    ∧ (startRampUp Bench.context (Bench.unit (.settle Bench.context 10))).txe.array = .rampUp Bench.context 0
    ∧ (takeRampEnds [(0, .pattern 2)] up).txe.array = .rampUp Bench.context 0
    ∧ (takeRampEnds [(0, .pattern 5)] up).txe.array = .active 5
    ∧ (takeRampEnds [(0, .pattern 5)] up).txe.history = [Bench.history .completed (some 100)]
    ∧ (takeRampEnds [(0, .pattern 5)] up).mon.holdOff = some 0
    ∧ up.txe.history.head?.map (·.outcome) = some .opened ∧ up.scu.deferred = none := by decide +kernel

/-- A halt from each phase and from ACTIVE, and what follows at rest. -/
theorem test_halts :
    let all := [ArrayState.rampDown Bench.context, .switching Bench.context, .settle Bench.context 3,
      .readyUp Bench.context (.awaiting 3), .rampUp Bench.context 0, .active 5]
    all.map (fun a => (haltView (Bench.unit a)).map fun v => v.step.code) = [some 1, some 2, some 3, some 4, some 5, some 6]
    ∧ all.map (fun a => (halt .drift (.contactor 0) (Bench.unit a)).txe.array.code) = [8, 8, 8, 8, 8, 8]
    ∧ (halt .drift (.contactor 0) (Bench.unit (.active 5))).txe.history.map (fun h => (h.outcome, h.endFrame, h.halts))
        = [(.opened, none, 1)]
    ∧ (halt .drift (.contactor 0) (Bench.unit (.active 5))).cmu.reports.length = 2
    ∧ (halt .ring .none (Bench.driven (.active 2))).dsy = (Bench.driven (.active 2)).dsy
    ∧ (takeAtRest (Bench.unit (.halted { Bench.halt with restNoticed := false }))).txe.array = .halted Bench.halt
    ∧ takeAtRest (Bench.unit (.halted Bench.halt)) = Bench.unit (.halted Bench.halt)
    ∧ takeAtRest (Bench.driven .muting) = Bench.driven .muting
    ∧ (takeAtRest (Bench.unit .muting)).txe.array = .muted none := by decide +kernel

/-- The items of each kind of target, and the in-use set of each kind of array state. -/
theorem test_items_and_in_use :
    let w := fun k : Nat => (Bench.record 272 7).getD k 0
    let numbers := fun x : Target => (targetItems (Bench.unit .unset) x w).map (·.number)
    slotTarget 2 = (2 : Target) ∧ numbers 2 = (patternItems 2 (Bench.unit .unset).ctu w).map (·.number)
    ∧ numbers 16 = (contactorTableItems w).map (·.number) ∧ numbers 17 = (scheduleTableItems w).map (·.number)
    ∧ [ArrayState.unset, .active 3, .rampUp Bench.context 0, .halted Bench.halt, .muting, .muted (some 4)].map ArrayState.slots
      = [[], [3], [5, 2], [5, 2], [], [4]]
    ∧ ((Bench.unit .unset).setArmed (some Bench.armed)).txe.inUse 5 = true ∧ (Bench.unit .unset).txe.inUse 5 = false := by
  decide +kernel

/-! ## Invariants -/

/-- The bench's unit in ACTIVE, about to take a missed frame. -/
def Bench.stepping : State := (Bench.unit (.active 2)).setPending [.missedFrame]

/-- A ramp that stands at amplitude zero, cancelled by a force-zero: at rest at once (log 39). -/
theorem test_cancelled_ramp_is_at_rest :
    let d := { (Bench.unit .unset).dsy with
      towers := modifyAt (Bench.unit .unset).dsy.towers 0 fun x => { x with order := .ramp (zeroRamp x 10) } }
    d.atRest 0 = false ∧ (d.forceZero 1).atRest 0 = true ∧ (d.rampDownAll 10 0).atRest 0 = true
    ∧ (d.rampDownAll 10 1).atRest 0 = false := by decide +kernel

/-- A return record and the notice TX_COMPLETED in words (11.3), and a drive frame (11.5). -/
theorem test_words_of_records :
    (Record.ret 9 2 5 .wrongState [7]).words = [1, 0x209, 0xC05, 7]
    ∧ (Record.notice .txCompleted (some 0x10002) (some 5) (some 0x41424344) [42, 0, 60, 0x4142]).words
      = [0x8E43, 1, 2, 0x4405, 42, 0, 60, 0x4142]
    ∧ (Record.notice .ringLost none none none [3]).words = [0xDF00, 0, 0, 255, 3, 0, 0, 0]
    ∧ ({ number := 0x10002, reference := 3, phase := 11250, samples := [8], state := .driven, saturated := true } :
        DriveFrame).words = [1, 2, 3, 11250, 0x102, 8] := by decide +kernel

/-- The laws hold of a unit that takes a step. -/
theorem test_laws_hold : QueueLaw Bench.stepping ∧ RingLaw Bench.stepping ∧ DriveOffLaw Bench.stepping
    ∧ TowerLaw Bench.stepping ∧ ContactorLaw Bench.stepping ∧ (Bench.got (step Bench.stepping)).isSome = true := by decide +kernel
theorem test_more_laws_hold : Bench.lawful Bench.stepping = true ∧ EngineLaw Bench.stepping ∧ ScheduleLaw Bench.stepping
    ∧ Bench.lawful (Bench.loading 20 0 (Bench.buffer 9 0 20)) = true := by decide +kernel

/-- The monitor's law, with tower 0 OUT. -/
theorem test_monitor_law : MonitorLaw (Bench.tolerance .out 2 false) ∧ (Bench.got (step (Bench.tolerance .out 2 false))).isSome = true := by
  decide +kernel

end Sys2Proof.Machine
end

section
/-! SUPPORT. Every operation that loads nothing leaves directory, store memory and Load Unit alone and takes VALID slots only into
use, said once per operation. -/
namespace Sys2Proof.Machine

/-! ## Slots taken into use (R79) -/

/-- s stands after operations on o that load nothing: directory, store memory and Load Unit are those of o, and every slot that
TXE uses is VALID (R79). -/
structure UsesValid (o s : State) : Prop where
  dir   : s.pst.dir = o.pst.dir
  store : s.pst.store = o.pst.store
  ldu   : s.ldu = o.ldu
  slots : ∀ k ∈ s.txe.array.slots, o.pst.isValid k = true
  armed : ∀ a ∈ s.txe.armed, o.pst.isValid a.target = true

/-- The slots of a transition context are VALID. -/
def TxContext.UsesValid (o : State) (c : TxContext) : Prop :=
  ∀ k ∈ c.target :: c.source.toList, o.pst.isValid k = true

theorem inUse_iff (x : Txe) (k : Slot) :
    x.inUse k = true ↔ k ∈ x.array.slots ∨ ∃ a ∈ x.armed, a.target = k := by
  simp [Txe.inUse]

theorem usesValid_self {s : State} : UsesValid s s ↔ ∀ k : Slot, s.txe.inUse k = true → s.pst.isValid k = true := by
  constructor
  · intro h k hk
    rcases (inUse_iff ..).1 hk with hk | ⟨a, ha, rfl⟩
    · exact h.slots k hk
    · exact h.armed a ha
  · intro h
    exact ⟨rfl, rfl, rfl, fun k hk => h k ((inUse_iff ..).2 (.inl hk)), fun a ha => h _ ((inUse_iff ..).2 (.inr ⟨a, ha, rfl⟩))⟩

/-- A slot is VALID as the directory has it. -/
theorem isValid_congr {p q : Pst} (h : p.dir = q.dir) (k : Slot) : p.isValid k = q.isValid k := by
  simp only [Pst.isValid, h]

@[simp] theorem raiseDue_txe (s : State) (x : Occurrence) (a : DueOutcome) (r : DueReason) (f : Option FrameNum) :
    (raiseDue x a r f s).txe = s.txe := rfl

@[simp] theorem defer_txe (s : State) (x : Occurrence) : (defer x s).txe = s.txe := by
  unfold defer
  split
  · simp only [apply_ite State.txe, State.setScu_txe, raiseDue_txe, ite_self]
  · rfl

/-- A list of operations that each leave TXE alone leaves it alone. -/
theorem foldl_txe {α : Type} (f : State → α → State) (h : ∀ s a, (f s a).txe = s.txe) (l : List α) (s : State) :
    (l.foldl f s).txe = s.txe := by
  induction l generalizing s with
  | nil => rfl
  | cons a l ih => rw [List.foldl_cons, ih, h]

namespace UsesValid

variable {o s t : State}

theorem valid (h : UsesValid o s) (k : Slot) : s.pst.isValid k = o.pst.isValid k := isValid_congr h.dir k

/-- An operation that keeps the store and the Load Unit, with the slots of TXE after it. -/
theorem keeps (h : UsesValid o s) (k : Keeps s t) (hs : ∀ k ∈ t.txe.array.slots, o.pst.isValid k = true)
    (ha : ∀ a ∈ t.txe.armed, o.pst.isValid a.target = true) : UsesValid o t :=
  ⟨by rw [k.pst, h.dir], by rw [k.pst, h.store], by rw [k.ldu, h.ldu], hs, ha⟩

/-- An operation that leaves TXE alone too. -/
theorem keepsTxe (h : UsesValid o s) (k : Keeps s t) (ht : t.txe = s.txe) : UsesValid o t :=
  h.keeps k (ht ▸ h.slots) (ht ▸ h.armed)

theorem ite {p : Prop} [Decidable p] (h : UsesValid o s) (k : UsesValid o t) : UsesValid o (if p then s else t) := by
  split
  · exact h
  · exact k

/-! ### Updates of a block -/

theorem setDsy (h : UsesValid o s) (b : Dsy) : UsesValid o (s.setDsy b) := h.keepsTxe (setDsy_keeps ..) rfl
theorem setMon (h : UsesValid o s) (b : Mon) : UsesValid o (s.setMon b) := h.keepsTxe (setMon_keeps ..) rfl
theorem setScu (h : UsesValid o s) (b : Scu) : UsesValid o (s.setScu b) := h.keepsTxe (setScu_keeps ..) rfl
theorem setRif (h : UsesValid o s) (b : Rif) : UsesValid o (s.setRif b) := ⟨h.dir, h.store, h.ldu, h.slots, h.armed⟩
theorem setCmu (h : UsesValid o s) (b : Cmu) : UsesValid o (s.setCmu b) := ⟨h.dir, h.store, h.ldu, h.slots, h.armed⟩
theorem setGuard (h : UsesValid o s) (g : Option Slot) : UsesValid o (setGuard g s) := h.keepsTxe (setGuard_keeps ..) rfl
theorem setCtu (h : UsesValid o s) (b : Ctu) : UsesValid o (s.setCtu b) := h.keepsTxe (setCtu_keeps ..) rfl
theorem raise (h : UsesValid o s) (k : NoticeKind) (b : Option (BitVec 8)) (d : List Word) : UsesValid o (s.raise k b d) :=
  h.keepsTxe (raise_keeps ..) rfl

theorem setArray (h : UsesValid o s) {a : ArrayState} (ha : ∀ k ∈ a.slots, o.pst.isValid k = true) :
    UsesValid o (s.setArray a) := h.keeps (setArray_keeps ..) ha h.armed

theorem setArmed (h : UsesValid o s) {a : Option Armed} (ha : ∀ x ∈ a, o.pst.isValid x.target = true) :
    UsesValid o (s.setArmed a) := h.keeps (setArmed_keeps ..) h.slots ha

theorem disarm (h : UsesValid o s) : UsesValid o (s.setArmed none) := h.setArmed (by simp)

theorem closeRecord (h : UsesValid o s) (x : HistOutcome) (f : FrameNum) : UsesValid o (closeRecord x f s) :=
  h.keeps (closeRecord_keeps ..) h.slots h.armed

/-- The slots of the context of a phase. -/
theorem context (h : UsesValid o s) {c : TxContext} (hc : s.txe.array.context = some c) : c.UsesValid o := by
  intro k hk
  apply h.slots
  cases ha : s.txe.array <;> simp_all [ArrayState.context, ArrayState.slots]

/-! ### Requests and reports -/

theorem withdraw (h : UsesValid o s) (r : WithdrawReason) : UsesValid o (withdraw r s) :=
  h.keeps (withdraw_keeps ..) (by rw [withdraw_txe]; exact h.slots) (by simp)

/-- A request of SCU or MON arms a VALID slot only (R62). -/
theorem request (h : UsesValid o s) (k : Slot) (m : ReqMode) (f : Option FrameNum) (c : Cause) :
    UsesValid o (request k m f c s).1 := by
  unfold Machine.request
  split
  · rename_i p _
    cases hr : requestRefusal s p k m (c == .schedule) with
    | some r => exact h
    | none =>
      have hk : o.pst.isValid k = true := by
        rw [← h.valid]
        unfold requestRefusal at hr
        split_ifs at hr with _ _ hv
        all_goals simpa using hv
      dsimp only
      split
      · exact h.setArmed (by simpa using hk)
      · exact h
  all_goals exact h

theorem settleDue (h : UsesValid o s) (x : Occurrence) (a : ReqAnswer) : UsesValid o (settleDue x a s) := by
  refine h.keepsTxe (settleDue_keeps ..) ?_
  simp only [Machine.settleDue, raiseDue_txe, apply_ite State.txe, State.setScu_txe, defer_txe, ite_self]

theorem actOn (h : UsesValid o s) (x : Occurrence) (f : Option FrameNum) : UsesValid o (actOn x f s) := by
  unfold Machine.actOn
  split
  · exact h
  · exact (h.request ..).settleDue ..

theorem raiseDue (h : UsesValid o s) (x : Occurrence) (a : DueOutcome) (r : DueReason) (f : Option FrameNum) :
    UsesValid o (raiseDue x a r f s) := h.raise ..

theorem tellActive (h : UsesValid o s) (p : Slot) : UsesValid o (tellActive p s) := by
  unfold Machine.tellActive offerDeferred
  split
  · exact h.setMon _
  · exact ((h.setMon _).setScu _).actOn ..

theorem tellStopped (h : UsesValid o s) : UsesValid o (tellStopped s) := h.keepsTxe (tellStopped_keeps _) (tellStopped_txe _)

theorem moveRequest (h : UsesValid o s) (c : ContactorIx) (p : Position) : UsesValid o (moveRequest c p s).1 :=
  h.keepsTxe (moveRequest_keeps ..) (moveRequest_txe ..)

/-! ### Transitions -/

theorem noteAtRest (h : UsesValid o s) {c : HaltContext} (hs : s.txe.array = .halted c) : UsesValid o (noteAtRest c s) :=
  (h.setArray (a := .halted { c with restNoticed := true }) (by have := h.slots; rwa [hs] at this)).raise ..

/-- The slots of a halt context are those of the state that halts (R84). -/
theorem haltView_slots {v : HaltView} (hv : haltView s = some v) : s.txe.array.slots = v.target :: v.source.toList := by
  unfold haltView at hv
  cases ha : s.txe.array <;> simp only [ha, Option.some.injEq, reduceCtorEq] at hv <;> subst hv <;> rfl

theorem halt (h : UsesValid o s) (r : HaltReason) (u : HaltSubject) : UsesValid o (halt r u s) := by
  cases hv : haltView s with
  | none => unfold Machine.halt; rw [hv]; exact h
  | some v =>
    obtain ⟨b, hb⟩ := halt_array (r := r) (u := u) hv
    refine h.keeps (halt_keeps ..) (fun k hk => ?_) ?_
    · rw [hb] at hk
      exact h.slots k (haltView_slots hv ▸ hk)
    · unfold Machine.halt; rw [hv]; simp

theorem takeDrift (h : UsesValid o s) (c : ContactorIx) : UsesValid o (takeDrift c s) := by
  unfold Machine.takeDrift
  split
  · exact (h.setDsy _).halt ..
  · exact h

variable {c : TxContext}

theorem startRampUp (h : UsesValid o s) (hc : c.UsesValid o) : UsesValid o (startRampUp c s) := by
  have h1 := h.setArray (a := .rampUp c 0) hc
  unfold Machine.startRampUp
  split
  · exact h1.halt ..
  · exact h1.setDsy _

theorem enterReadyUp (h : UsesValid o s) (hc : c.UsesValid o) (g : Nat) : UsesValid o (enterReadyUp c g s) :=
  (h.setArray (a := .readyUp c (.awaiting 0)) hc).raise ..

theorem afterSettle (h : UsesValid o s) (hc : c.UsesValid o) : UsesValid o (afterSettle c s) := by
  unfold Machine.afterSettle
  split
  · exact h.enterReadyUp hc _
  · exact h.startRampUp hc

theorem enterSettle (h : UsesValid o s) (hc : c.UsesValid o) : UsesValid o (enterSettle c s) := by
  have h1 := h.setArray (a := .settle c 0) hc
  unfold Machine.enterSettle
  split
  · exact h1.afterSettle hc
  · exact h1

theorem takeDrifts (l : List ContactorIx) (h : UsesValid o s) : UsesValid o (l.foldl (fun s k => Machine.takeDrift k s) s) := by
  induction l generalizing s with
  | nil => exact h
  | cons k l ih => exact ih (h.takeDrift k)

theorem leaveSwitching (h : UsesValid o s) (hc : c.UsesValid o) : UsesValid o (leaveSwitching c s) := by
  unfold Machine.leaveSwitching
  refine takeDrifts _ ?_
  split
  · exact (h.setGuard _).enterSettle hc
  · exact (h.setGuard _).afterSettle hc

theorem judgeSwitching (h : UsesValid o s) : UsesValid o (judgeSwitching s) := by
  unfold Machine.judgeSwitching
  split
  · rename_i ha
    split
    · exact h.leaveSwitching (h.context (by rw [ha]; rfl))
    · exact h
  all_goals exact h

theorem enterSwitching (h : UsesValid o s) (hc : c.UsesValid o) : UsesValid o (enterSwitching c s) := by
  obtain ⟨htxe, _, _, _, hsame⟩ := giveMoves_spec s (recRequirements (s.recordOf c.target)) { c with awaited := 0, moved := false }
  have h1 := h.keepsTxe (giveMoves_keeps ..) htxe
  have h2 := h1.setArray (a := .switching (giveMoves (recRequirements (s.recordOf c.target))
    { c with awaited := 0, moved := false } s).1) (by
      rw [ArrayState.slots, hsame.target, hsame.source]; exact hc)
  unfold Machine.enterSwitching
  dsimp only
  split
  · exact h2.halt ..
  · exact h2.judgeSwitching

theorem enterRampDown (h : UsesValid o s) (hc : c.UsesValid o) : UsesValid o (enterRampDown c s) := by
  have h1 := (h.setArray (a := .rampDown c) hc).setDsy (s.dsy.rampDownAll c.downLen c.blend)
  unfold Machine.enterRampDown
  dsimp only
  split
  · exact h1.enterSwitching hc
  · exact h1

theorem launch (h : UsesValid o s) (hc : c.UsesValid o) (f : FrameNum) : UsesValid o (launch c f s) := by
  have h1 : UsesValid o (openRecord c.cause c.source c.target c.mode c.joint.isSome f s) :=
    h.keeps (setTxe_keeps ..) h.slots h.armed
  exact (((h1.setGuard none).enterRampDown hc).raise ..).setMon _

/-- A transition without a source uses its target alone. -/
theorem plain {k : Slot} (hk : o.pst.isValid k = true) (u : State) (x : Cause) : (plainContext u x k).UsesValid o := by
  simpa [TxContext.UsesValid, plainContext, formContext] using hk

theorem startArmed (h : UsesValid o s) {a : Armed} (ha : s.txe.armed = some a) (f : FrameNum) :
    UsesValid o (startArmed a f s) := by
  have hc : (armedContext s a).UsesValid o := by
    have hactive : ∀ k ∈ s.txe.array.activeSlot, o.pst.isValid k = true := by
      intro k hk
      apply h.slots
      cases hx : s.txe.array <;> simp_all [ArrayState.activeSlot, ArrayState.slots]
    simpa [TxContext.UsesValid, armedContext, formContext] using ⟨h.armed a ha, hactive⟩
  refine UsesValid.launch ?_ hc f
  unfold abandonHalted
  split
  · exact h.disarm.closeRecord ..
  all_goals exact h.disarm

theorem complete (h : UsesValid o s) (hc : c.UsesValid o) : UsesValid o (complete c s) := by
  have h1 := ((h.setArray (a := .active c.target) (by simpa [ArrayState.slots] using hc _ (by simp))).closeRecord .completed
    s.txe.now)
  have h2 := h1.setDsy (Machine.closeRecord .completed s.txe.now (s.setArray (.active c.target))).dsy.clearClips
  refine UsesValid.tellActive ?_ _
  unfold raiseCompleted
  split
  · exact h2
  · exact h2.setCmu _

theorem takeRampEnds (h : UsesValid o s) (l : List (TowerIx × RampEnd)) : UsesValid o (takeRampEnds l s) := by
  unfold Machine.takeRampEnds
  split
  · rename_i c e ha
    have hc : c.UsesValid o := h.context (by rw [ha]; rfl)
    dsimp only
    split
    · exact h.complete hc
    · exact h.setArray hc
  all_goals exact h

theorem enterMuted (h : UsesValid o s) (x : MutedCause) {r : Option Slot} (hr : ∀ k ∈ r, o.pst.isValid k = true) :
    UsesValid o (enterMuted x r s) :=
  ((h.setArray (a := .muted r) (by simpa [ArrayState.slots] using hr)).raise ..).tellStopped

theorem enterMuted_none (h : UsesValid o s) (x : MutedCause) : UsesValid o (Machine.enterMuted x none s) :=
  h.enterMuted x (by simp)

theorem takeAtRest (h : UsesValid o s) : UsesValid o (takeAtRest s) := by
  unfold Machine.takeAtRest
  split
  · rename_i ha
    split
    · exact h.enterSwitching (h.context (by rw [ha]; rfl))
    · exact h
  · split
    · exact h.enterMuted_none _
    · exact h
  · rename_i ha
    split
    · exact h.noteAtRest ha
    · exact h
  all_goals exact h

theorem frameEvent (h : UsesValid o s) (n : FrameNum) (b : Bool) : UsesValid o (frameEvent n b s) := by
  have h1 : UsesValid o (s.setTxe { s.txe with frame := some n }) := h.keeps (setTxe_keeps ..) h.slots h.armed
  unfold Machine.frameEvent
  dsimp only
  split
  · rename_i ha
    unfold examineArmed
    split_ifs
    · exact h1.withdraw _
    · exact h1.startArmed ha _
    · exact h1
    · exact h1.withdraw _
  · split
    · rename_i c f ha
      have hc : c.UsesValid o := h1.context (by rw [ha]; rfl)
      unfold examineGo
      split_ifs
      · exact h1.startRampUp hc
      · exact h1
      · exact h1.enterReadyUp hc _
    all_goals exact h1

theorem writeFrames (h : UsesValid o s) (f : FrameSource) : UsesValid o (writeFrames f s) := by
  refine h.keepsTxe (writeFrames_keeps ..) ?_
  unfold Machine.writeFrames raiseClips
  rw [foldl_txe]
  · rfl
  · intro u t
    split <;> rfl

theorem ringFrame (h : UsesValid o s) (f : FrameSource) (b : Bool) : UsesValid o (ringFrame f b s) :=
  (((h.frameEvent ..).writeFrames f).takeAtRest).takeRampEnds _

/-! ### Reports, losses and mutes -/

theorem unawait (h : UsesValid o s) (k : ContactorIx) : UsesValid o (unawait k s) := by
  unfold Machine.unawait
  split
  · rename_i c ha
    have hc : c.UsesValid o := h.context (by rw [ha]; rfl)
    exact h.setArray hc
  all_goals exact h

theorem takeReport (h : UsesValid o s) (k : ContactorIx) (r : CtuReport) : UsesValid o (takeReport k r s) := by
  unfold Machine.takeReport
  split
  · exact h
  · exact (h.unawait k).judgeSwitching
  · exact (h.unawait k).judgeSwitching
  · split
    · exact h.takeDrift k
    · exact h.judgeSwitching

theorem takeStuck (h : UsesValid o s) (k : ContactorIx) : UsesValid o (takeStuck k s) := by
  unfold Machine.takeStuck
  split
  · exact h.halt ..
  all_goals exact h

theorem takeCabinetLoss (h : UsesValid o s) (t : TowerIx) : UsesValid o (takeCabinetLoss t s) := by
  unfold Machine.takeCabinetLoss
  split
  · split
    · exact h.halt ..
    · exact h
  all_goals exact h

theorem takeLost (h : UsesValid o s) : UsesValid o (takeLost s) := by
  unfold Machine.takeLost
  cases ha : s.txe.array <;> dsimp only
  case active p =>
    have hp : o.pst.isValid p = true := h.slots p (by simp [ha, ArrayState.slots])
    exact ((h.withdraw _).setGuard none).enterMuted _ (by simpa using hp)
  case muting => exact h.enterMuted_none _
  case unset | muted | halted => exact h
  all_goals exact h.halt ..

theorem takeRegain (h : UsesValid o s) : UsesValid o (takeRegain s) := by
  unfold Machine.takeRegain
  split
  · rename_i p ha
    have hp : o.pst.isValid p = true := h.slots p (by simp [ha, ArrayState.slots])
    exact (h.setArray (a := .muted none) (by simp [ArrayState.slots])).launch (plain hp s _) _
  all_goals exact h

theorem unmute (h : UsesValid o s) : UsesValid o (s.setArray (.muted none)) := h.setArray (by simp [ArrayState.slots])

theorem takeInterlock (h : UsesValid o s) : UsesValid o (takeInterlock s) := by
  have h1 := h.withdraw .interlock
  unfold Machine.takeInterlock
  dsimp only
  cases (Machine.withdraw .interlock s).txe.array <;> dsimp only
  case active => exact (h1.setGuard none).enterMuted_none _
  case muting => exact h1.enterMuted_none _
  case muted => exact h1.unmute
  case unset | halted => exact h1
  all_goals exact h1.halt ..

theorem muteTowers (h : UsesValid o s) (len : Nat) : UsesValid o (muteTowers len s) := by
  have h1 := h.setDsy (s.dsy.rampDownAll len 0)
  unfold Machine.muteTowers
  dsimp only
  split
  · exact h1.enterMuted_none _
  · exact (h1.setArray (a := .muting) (by simp [ArrayState.slots])).setMon _

theorem muteArray (h : UsesValid o s) (len : Nat) : UsesValid o (muteArray len s) := by
  have h1 := h.closeRecord .muted s.txe.now
  unfold Machine.muteArray
  cases ha : s.txe.array <;> dsimp only
  case unset | muting => exact h
  case muted => exact h.unmute
  case active => exact (h.setGuard none).muteTowers len
  case halted => exact h1.muteTowers len
  all_goals exact (h1.setGuard none).muteTowers len

/-! ### Schedule and monitor -/

theorem takeOccurrence (h : UsesValid o s) (x : Occurrence) : UsesValid o (takeOccurrence x s) := by
  unfold Machine.takeOccurrence
  split
  · unfold holdDue
    split
    · exact ((h.raiseDue ..).setScu _).raiseDue ..
    · exact (h.setScu _).raiseDue ..
  · exact h.actOn ..

theorem fallDue (h : UsesValid o s) (os : List Occurrence) : UsesValid o (fallDue os s) := by
  induction os generalizing s with
  | nil => exact h
  | cons x xs ih =>
    cases xs with
    | nil => exact h.takeOccurrence x
    | cons y ys => exact ih (h.raiseDue ..)

theorem crossClock (h : UsesValid o s) (d0 : Date) (t0 n : Nat) (d1 : Date) (t1 : Nat) :
    UsesValid o (crossClock d0 t0 n d1 t1 s) := by
  have h1 := h.setScu (s.scu.setClock d1 t1)
  have h2 : UsesValid o (if n = 2 then raiseClockSet d1 t1 n (s.setScu (s.scu.setClock d1 t1))
      else s.setScu (s.scu.setClock d1 t1)) := by
    split
    · exact h1.raise ..
    · exact h1
  unfold Machine.crossClock
  dsimp only
  generalize (if n = 2 then raiseClockSet d1 t1 n (s.setScu (s.scu.setClock d1 t1))
      else s.setScu (s.scu.setClock d1 t1)) = u at h2
  split
  · exact h2
  · split
    · exact h2.fallDue _
    · exact h1.raise ..

theorem takeTime (h : UsesValid o s) (b : TimeBody) : UsesValid o (takeTime b s) := by
  unfold Machine.takeTime
  split
  · split
    · exact (h.setScu _).raise ..
    · exact h.crossClock ..
    · exact h.crossClock ..
  · exact h.raise ..

theorem holdOn (h : UsesValid o s) : UsesValid o (holdOn s) := by
  unfold Machine.holdOn
  split
  · exact h
  · split
    · exact h.setScu _
    · exact (h.setScu _).raiseDue ..

theorem holdOff (h : UsesValid o s) (b : Bool) : UsesValid o (holdOff b s) := by
  unfold Machine.holdOff
  split
  · split
    · exact h.setScu _
    · dsimp only
      split
      · exact (h.setScu _).actOn ..
      · exact (h.setScu _).raiseDue ..
  · exact h

theorem staleExpiry (h : UsesValid o s) : UsesValid o (staleExpiry s) := by
  unfold Machine.staleExpiry
  split
  · exact (h.setScu _).raise ..
  all_goals exact h

theorem takeFaultAction (h : UsesValid o s) (w : Nat → Word) : UsesValid o (takeFaultAction w s).1 := by
  unfold Machine.takeFaultAction
  split
  · exact h
  · split
    · exact h
    · exact (h.request ..).setMon _

theorem setStatus (h : UsesValid o s) (t : TowerIx) (x : Tolerance) (n : Nat) : UsesValid o (setStatus t x n s) := h.setMon _

theorem judgeTower (h : UsesValid o s) (w : Nat → Word) (t : TowerIx) (r : Nat) (m : Int) (q : BitVec 8) :
    UsesValid o (judgeTower w t r m q s) := by
  unfold Machine.judgeTower
  dsimp only
  refine ite (ite ?_ ?_) (ite h (ite ?_ ?_))
  · exact (h.setStatus ..).raise ..
  · exact h.setStatus ..
  · exact ((h.setStatus ..).takeFaultAction w).raise ..
  · exact h.setStatus ..

/-- New trims, directory and store memory as they were. -/
theorem setTrims (h : UsesValid o s) {p : Pst} (hd : p.dir = s.pst.dir) (hs : p.store = s.pst.store) :
    UsesValid o (s.setPst p) := ⟨hd.trans h.dir, hs.trans h.store, h.ldu, h.slots, h.armed⟩

theorem trimTower (h : UsesValid o s) (w : Nat → Word) (k : Slot) (t : TowerIx) (r : Nat) (m : Int) :
    UsesValid o (trimTower w k t r m s) := by
  have hn : ∀ a b, UsesValid o (noticeLimit w k t a b s) := by
    intro a b
    unfold noticeLimit
    split
    · exact h
    · split
      · exact h
      · exact (h.setMon _).raise ..
  unfold Machine.trimTower
  dsimp only
  split
  · exact h
  · refine (hn _ _).setTrims ?_ ?_ <;> · unfold Pst.trimUpdate; split <;> rfl

theorem takeRecord (h : UsesValid o s) (rx : Rx) : UsesValid o (takeRecord rx s) := by
  have taken : ∀ r : MonRecord, UsesValid o (recordTaken r s) := by
    intro r
    unfold recordTaken
    dsimp only
    split
    · exact h.setMon _
    · exact (h.setMon _).raise ..
  have towers : ∀ (r : MonRecord) (w : Nat → Word) (k : Slot) (l : List TowerIx) (u : State), UsesValid o u →
      UsesValid o (l.foldl (evaluateTower w k r) u) := by
    intro r w k l
    induction l with
    | nil => exact fun _ hu => hu
    | cons t l ih =>
      intro u hu
      refine ih _ ?_
      unfold evaluateTower
      dsimp only
      split
      · exact (hu.judgeTower ..).trimTower ..
      · exact hu
  unfold Machine.takeRecord
  split
  · exact h
  · split
    · exact taken _
    · unfold evaluate
      split
      · exact taken _
      · split
        · exact towers _ _ _ _ _ (taken _)
        · exact taken _

/-! ### The ring -/

theorem enterGood (h : UsesValid o s) : UsesValid o (enterGood s) := by
  unfold Machine.enterGood
  dsimp only
  split
  · exact (((h.setRif _).takeRegain).raise ..).setRif _
  · exact h.setRif _

theorem receiveSample (h : UsesValid o s) (rx : Rx) : UsesValid o (receiveSample rx s) := by
  unfold Machine.receiveSample
  split
  · rename_i f _
    have h1 := h.setRif (s.rif.takeValid f.number rx)
    unfold receiveValid handValid
    dsimp only
    split_ifs
    · exact h1.enterGood
    · exact h1
    · exact (h1.enterGood.setDsy _).ringFrame ..
    · exact (h1.setDsy _).ringFrame ..
  · unfold receiveFailed
    dsimp only
    split
    · exact h.setRif _
    · exact ((h.setRif _).setDsy _).ringFrame ..

theorem missFrame (h : UsesValid o s) : UsesValid o (missFrame s) := by
  unfold Machine.missFrame
  split
  · exact h
  · exact ((h.setRif _).setDsy _).ringFrame ..

theorem localFrame (h : UsesValid o s) : UsesValid o (localFrame s) := by
  unfold Machine.localFrame
  split
  · exact (h.setDsy _).takeAtRest
  · exact h

theorem lossExpiry (h : UsesValid o s) : UsesValid o (lossExpiry s) := by
  unfold Machine.lossExpiry
  split
  · exact h
  · exact ((((h.setRif _).setDsy _).takeLost.raise ..).setRif _).takeAtRest

theorem passMessage (h : UsesValid o s) (rx : Rx) : UsesValid o (passMessage rx s) := h.setRif _

theorem receiveMgmt (h : UsesValid o s) (rx : Rx) : UsesValid o (receiveMgmt rx s) := by
  have h1 := h.passMessage rx
  unfold Machine.receiveMgmt enqueue
  split
  · split_ifs
    · exact h1.setCmu _
    · exact h1.setCmu _
    · exact h1
  · exact h1

theorem receiveTime (h : UsesValid o s) (rx : Rx) : UsesValid o (receiveTime rx s) := by
  have h1 := h.passMessage rx
  unfold Machine.receiveTime
  split
  · split
    · exact h1.takeTime _
    · exact h1
  · exact h1

theorem receiveRelease (h : UsesValid o s) (rx : Rx) : UsesValid o (receiveRelease rx s) := by
  have h1 := h.passMessage rx
  unfold Machine.receiveRelease
  split_ifs
  · exact (h1.setRif _).setCmu _
  · exact h1
  · exact (h1.setRif _).raise ..
  · exact h1

theorem receiveEmpty (h : UsesValid o s) (rx : Rx) : UsesValid o (receiveEmpty rx s) := by
  unfold Machine.receiveEmpty
  split
  · exact (h.passMessage rx).setRif _
  · exact h.passMessage rx

/-! ### Pins and timers -/

theorem ilkLineOpen (h : UsesValid o s) : UsesValid o (ilkLineOpen s) := by
  unfold Machine.ilkLineOpen interlockOpens
  dsimp only
  split
  · exact ((((h.setDsy _).setDsy _).raise ..).setDsy _).takeInterlock.takeAtRest
  · exact h.setDsy _

theorem ilkQualified (h : UsesValid o s) : UsesValid o (ilkQualified s) := by
  unfold Machine.ilkQualified
  split
  · exact (h.setDsy _).raise ..
  · exact h

theorem rdyDebounced (h : UsesValid o s) (t : TowerIx) : UsesValid o (rdyDebounced t s) := by
  unfold Machine.rdyDebounced
  split_ifs
  · exact (h.setDsy _).raise ..
  · exact ((h.setDsy _).raise ..).takeCabinetLoss t
  · exact h

theorem takeReading_txe (c : ContactorIx) (e : Contactor) (s : State) : (takeReading c e s).1.txe = s.txe := by
  unfold takeReading enterDisagree
  cases e.state <;> dsimp only <;> split_ifs <;> rfl

theorem auxDebounced (h : UsesValid o s) (c : ContactorIx) (i : AuxInput) : UsesValid o (auxDebounced c i s) := by
  have h1 : UsesValid o (s.onUnit c fun u => u.debounced i) := h.setCtu _
  unfold Machine.auxDebounced
  split
  · dsimp only
    split
    · exact h1
    · unfold readingChanged
      split
      · exact h1
      · exact (h1.keepsTxe (takeReading_keeps ..) (takeReading_txe ..)).takeReport ..
  · exact h

theorem travelExpired (h : UsesValid o s) (c : ContactorIx) : UsesValid o (travelExpired c s) := by
  unfold Machine.travelExpired
  split
  · exact h
  · split
    · exact ((h.setCtu _).raise ..).takeStuck c
    · exact h

theorem settleExpired (h : UsesValid o s) : UsesValid o (settleExpired s) := by
  unfold Machine.settleExpired
  split
  · rename_i ha
    exact h.afterSettle (h.context (by rw [ha]; rfl))
  all_goals exact h

theorem gateExpired (h : UsesValid o s) : UsesValid o (gateExpired s) := by
  unfold Machine.gateExpired
  split
  · exact h.halt ..
  all_goals exact h

theorem absenceExpiry (h : UsesValid o s) : UsesValid o (absenceExpiry s) := by
  unfold Machine.absenceExpiry
  split
  · exact (h.setMon _).raise ..
  · exact h

/-! ### Commands -/

theorem switchBody (h : UsesValid o s) (m : Mgmt) : UsesValid o (switchBody m s).1 := by
  unfold Machine.switchBody
  dsimp only
  split
  · exact h
  · rename_i hr
    have hk : o.pst.isValid (switchParams m).target = true := by
      rw [← h.valid]
      unfold switchRefusal at hr
      split_ifs at hr with hv
      simpa using hv
    split
    · exact h
    · rename_i f _
      split
      · exact h
      · have h1 := (h.withdraw .replaced).setArmed (a := some (armedOf (switchParams m) f)) (by simpa [armedOf] using hk)
        unfold arm
        dsimp only
        split
        · exact h1.unmute
        all_goals exact h1

theorem withdrawBody (h : UsesValid o s) (m : Mgmt) : UsesValid o (withdrawBody m s).1 := by
  unfold Machine.withdrawBody
  split
  · exact h
  · exact h.disarm

theorem goBody (h : UsesValid o s) (m : Mgmt) : UsesValid o (goBody m s).1 := by
  unfold Machine.goBody
  split
  · rename_i c _ ha
    have hc : c.UsesValid o := h.context (by rw [ha]; rfl)
    split
    · exact h
    · exact h.setArray hc
  all_goals exact h

theorem halted (h : UsesValid o s) {x : HaltContext} (hx : s.txe.array.haltContext = some x) :
    ∀ k ∈ x.target :: x.source.toList, o.pst.isValid k = true := by
  intro k hk
  apply h.slots
  cases ha : s.txe.array <;> simp_all [ArrayState.haltContext, ArrayState.slots]

theorem continueBody (h : UsesValid o s) (m : Mgmt) : UsesValid o (continueBody m s).1 := by
  unfold Machine.continueBody
  split
  · exact h
  · rename_i x hx
    split_ifs
    · exact h
    · exact h
    · exact ((h.withdraw .replaced).enterSwitching (c := continueContext x _) (h.halted hx)).raise ..

theorem retreatBody (h : UsesValid o s) (m : Mgmt) : UsesValid o (retreatBody m s).1 := by
  unfold Machine.retreatBody
  split
  · exact h
  · rename_i x hx
    split
    · exact h
    · split
      · exact h
      · rename_i k hk
        have hv : o.pst.isValid k = true := h.halted hx k (by simp [hk])
        split
        · exact h
        · exact ((h.withdraw .replaced).closeRecord ..).launch (plain hv _ _) _

theorem moveBody (h : UsesValid o s) (m : Mgmt) : UsesValid o (moveBody m s).1 := by
  unfold Machine.moveBody
  split
  · exact h.moveRequest ..
  · exact h

theorem trimClearBody (h : UsesValid o s) (m : Mgmt) : UsesValid o (trimClearBody m s).1 := by
  have h1 := h.setTrims (p := s.pst.clearTrims (slotParam m)) rfl rfl
  unfold Machine.trimClearBody
  dsimp only
  split
  · exact h1.setMon _
  · exact h1

theorem scheduleHoldBody (h : UsesValid o s) (m : Mgmt) : UsesValid o (scheduleHoldBody m s).1 := by
  unfold Machine.scheduleHoldBody
  split
  · exact h.holdOn
  · exact h.holdOff _

end UsesValid
end Sys2Proof.Machine
end

section
/-! SUPPORT. What the operations of the Load Unit do to a slot, its claim record and the memories, and that they keep the laws of
the store. -/
namespace Sys2Proof.Machine

/-! ## The laws of the store under loading (R1, R3, R137) -/

/-- The laws that every step keeps together: slots in use VALID and the directory with the claims, regions apart and
memories canonical. -/
abbrev StoreLaws (s : State) : Prop := InUseLaw s ∧ StoreLaw s

/-- After operations that load nothing the laws stand. -/
theorem UsesValid.storeLaws {o t : State} (u : UsesValid o t) (h : StoreLaws o) : StoreLaws t := by
  obtain ⟨⟨_, hagree⟩, hstore⟩ := h
  refine ⟨⟨fun k hk => ?_, ?_⟩, ?_⟩
  · rw [u.valid]
    rcases (inUse_iff ..).1 hk with hk | ⟨a, ha, rfl⟩
    · exact u.slots k hk
    · exact u.armed a ha
  · rw [u.dir, u.ldu]; exact hagree
  · unfold StoreLaw
    rw [u.dir, u.store, u.ldu]; exact hstore

theorem StoreLaws.usesValid {s : State} (h : StoreLaws s) : UsesValid s s := usesValid_self.2 h.1.1

/-- t differs from s in store memory, staging areas, trims and the Load Buffer among the blocks the laws speak of, and the
memories stay lawful. -/
structure Written (s t : State) : Prop where
  txe    : t.txe = s.txe
  dir    : t.pst.dir = s.pst.dir
  claims : t.ldu.claims = s.ldu.claims
  law    : StoreLaw s → StoreLaw t

theorem Written.refl (s : State) : Written s s := ⟨rfl, rfl, rfl, id⟩

theorem Written.trans {s t u : State} (h : Written s t) (k : Written t u) : Written s u :=
  ⟨k.txe.trans h.txe, k.dir.trans h.dir, k.claims.trans h.claims, fun x => k.law (h.law x)⟩

theorem StoreLaws.written {s t : State} (h : StoreLaws s) (w : Written s t) : StoreLaws t := by
  obtain ⟨⟨huse, hagree⟩, hstore⟩ := h
  refine ⟨⟨fun k hk => ?_, ?_⟩, w.law hstore⟩
  · rw [isValid_congr w.dir]
    exact huse k (w.txe ▸ hk)
  · rw [w.dir, w.claims]; exact hagree

/-! ### Targets and slots -/

/-- A load target is a slot, or one of the two tables (R136). -/
theorem targetSlot_cases (x : Target) :
    (∃ k, x = slotTarget k ∧ targetSlot x = some k) ∨ (targetSlot x = none ∧ ∀ k, slotTarget k ≠ x) := by
  unfold targetSlot
  split
  · rename_i h
    exact .inl ⟨⟨x.val, h⟩, rfl, rfl⟩
  · rename_i h
    refine .inr ⟨rfl, fun k hk => h ?_⟩
    rw [← hk]
    exact k.isLt

theorem slotTarget_inj {j k : Slot} : slotTarget j = slotTarget k ↔ j = k := by
  simp [slotTarget, Fin.ext_iff]

/-! ### A claim record and its slot -/

/-- Whether a slot and its claim record agree turns on the record's load state, holder and length. -/
theorem claimAgrees_congr {c d : Claim} (hp : d.isChecking = c.isChecking) (hh : d.holder = c.holder)
    (hl : d.length = c.length) (e : SlotEntry) : claimAgrees e (some d) = claimAgrees e (some c) := by
  cases e <;> simp only [claimAgrees, hp, hh, hl]

/-- The region r may stand in slot k: in the store, apart from every other slot's (R3). -/
def RegionFits (s : State) (k : Slot) (r : Nat × Nat) : Prop :=
  1 ≤ r.2 ∧ r.1 + r.2 ≤ 2048 ∧ ∀ j, j ≠ k → ∀ y ∈ s.pst.dir[j].region, apart r y

theorem StoreLaw.regionFits {s : State} (h : StoreLaw s) {k : Slot} {r : Nat × Nat} (hr : r ∈ s.pst.dir[k].region) :
    RegionFits s k r := by
  obtain ⟨hin, hapart, _⟩ := h
  exact ⟨(hin k r hr).1, (hin k r hr).2, fun j hj y hy => hapart k j hj.symm r hr y hy⟩

/-- Slot k takes entry e and its target claim record c, that agree: the laws stand when e is VALID if the slot is in use, and
its region fits. -/
theorem StoreLaws.setSlot {s : State} (h : StoreLaws s) {k : Slot} {e : SlotEntry} {c : Option Claim}
    (hagree : claimAgrees e c = true) (huse : s.txe.inUse k = true → e.isValid = true)
    (hfits : ∀ r ∈ e.region, RegionFits s k r) :
    StoreLaws ((s.setPst (s.pst.setEntry k e)).setClaim (slotTarget k) c) := by
  obtain ⟨⟨huses, hagrees⟩, hin, hapart, hstore⟩ := h
  have hdir : ∀ j, (setAt s.pst.dir k e)[j] = if j = k then e else s.pst.dir[j] := fun j => setAt_get ..
  refine ⟨⟨fun j hj => ?_, fun j => ?_⟩, fun j => ?_, fun i j hij => ?_, hstore⟩
  · show ((setAt s.pst.dir k e)[j]).isValid = true
    rw [hdir]
    split
    · rename_i hjk
      exact huse (hjk ▸ hj)
    · exact huses j hj
  · show claimAgrees (setAt s.pst.dir k e)[j] (setAt s.ldu.claims (slotTarget k) c)[slotTarget j] = true
    rw [hdir, setAt_get]
    simp only [slotTarget_inj]
    split
    · exact hagree
    · exact hagrees j
  · show ∀ r ∈ (setAt s.pst.dir k e)[j].region, _
    rw [hdir]
    split
    · exact fun r hr => ⟨(hfits r hr).1, (hfits r hr).2.1⟩
    · exact hin j
  · show ∀ x ∈ (setAt s.pst.dir k e)[i].region, ∀ y ∈ (setAt s.pst.dir k e)[j].region, apart x y
    rw [hdir, hdir]
    split
    · rename_i hik
      rw [if_neg fun hjk => hij (hik.trans hjk.symm)]
      exact fun x hx => (hfits x hx).2.2 j fun hjk => hij (hik.trans hjk.symm)
    · split
      · rename_i hik hjk
        exact fun x hx y hy => ((hfits y hy).2.2 i hik x hx).symm
      · exact hapart i j hij

/-- The claim record of a table concerns no slot. -/
theorem StoreLaws.setTable {s : State} (h : StoreLaws s) {x : Target} (hx : ∀ k, slotTarget k ≠ x) (c : Option Claim) :
    StoreLaws (s.setClaim x c) := by
  obtain ⟨⟨huses, hagrees⟩, hstore⟩ := h
  refine ⟨⟨huses, fun k => ?_⟩, hstore⟩
  show claimAgrees s.pst.dir[k] (setAt s.ldu.claims x c)[slotTarget k] = true
  rw [setAt_get, if_neg (hx k)]
  exact hagrees k

/-- A claim record replaced by one that agrees with the same slots. -/
theorem StoreLaws.reclaim {s : State} (h : StoreLaws s) {x : Target} {c d : Claim} (hc : s.ldu.claims[x] = some c)
    (hp : d.isChecking = c.isChecking) (hh : d.holder = c.holder) (hl : d.length = c.length) :
    StoreLaws (s.setClaim x (some d)) := by
  obtain ⟨⟨huses, hagrees⟩, hstore⟩ := h
  refine ⟨⟨huses, fun k => ?_⟩, hstore⟩
  show claimAgrees s.pst.dir[k] (setAt s.ldu.claims x (some d))[slotTarget k] = true
  rw [setAt_get]
  split
  · rename_i hk
    rw [claimAgrees_congr hp hh hl, ← hc, ← hk]
    exact hagrees k
  · exact hagrees k

/-- A claimed slot is LOADING or CHECKING as its record says, and not in use (R79, R137). -/
theorem StoreLaws.claimed {s : State} (h : StoreLaws s) {k : Slot} {c : Claim} (hc : s.ldu.claims[slotTarget k] = some c) :
    (∃ b, s.pst.dir[k] = if c.isChecking then .checking b c.length c.holder else .loading b c.length c.holder)
    ∧ s.txe.inUse k = false := by
  obtain ⟨⟨huses, hagrees⟩, _⟩ := h
  have ha := hagrees k
  have hu := huses k
  rw [hc] at ha
  unfold Pst.isValid at hu
  cases he : s.pst.dir[k] <;> rw [he] at ha hu <;>
    simp_all [claimAgrees, SlotEntry.isValid]

/-! ### Segments (R8, R143) -/

theorem store_lt_write {m : Mem} {n a : Nat} (h : ∀ c ∈ m, c.1 < n) (ha : a < n) (v : Word) : ∀ c ∈ m.write a v, c.1 < n := by
  intro c hc
  rcases Mem.mem_write hc with hc | ⟨rfl, -⟩
  · exact h c hc
  · exact ha

theorem store_lt_writeAll {n : Nat} (ws : List Word) {m : Mem} {a : Nat} (h : ∀ c ∈ m, c.1 < n) (ha : a + ws.length ≤ n) :
    ∀ c ∈ m.writeAll a ws, c.1 < n := by
  induction ws generalizing m a with
  | nil => exact h
  | cons w ws ih =>
    rw [List.length_cons] at ha
    exact ih (store_lt_write h (by omega) w) (by omega)

variable {s t : State} {x : Target}

theorem Pst.writeSegment_ok {p q : Pst} {k : Slot} {a : Nat} {ws : List Word} (h : p.writeSegment k a ws = .ok q) :
    ∃ b l u, p.dir[k] = .loading b l u ∧ a + ws.length ≤ l ∧ q = { p with store := p.store.writeAll (b + a) ws } := by
  unfold Pst.writeSegment at h
  split at h
  · rename_i b l u he
    split at h
    · rename_i hfit
      cases h
      exact ⟨b, l, u, he, hfit, rfl⟩
    · cases h
  all_goals cases h

/-- A segment goes within the slot's region, so store memory stays within its words. -/
theorem writeSegment_written {a : Nat} {ws : List Word} (h : writeSegment x a ws s = .ok t) : Written s t := by
  unfold writeSegment at h
  split at h
  · rename_i k _
    split at h
    · rename_i q hq
      cases h
      obtain ⟨b, l, u, he, hfit, rfl⟩ := Pst.writeSegment_ok hq
      refine ⟨rfl, rfl, rfl, fun ⟨hin, hapart, hlt, hwf, hstaging⟩ => ⟨hin, hapart, ?_, Mem.wf_writeAll hwf .., hstaging⟩⟩
      have hregion : b + l ≤ 2048 := (hin k (b, l) (by rw [he]; rfl)).2
      exact store_lt_writeAll _ hlt (by omega)
    · cases h
  · cases h
    refine ⟨rfl, rfl, ?_, fun ⟨hin, hapart, hlt, hwf, h16, h17⟩ => ⟨hin, hapart, hlt, hwf, ?_, ?_⟩⟩
    · simp only [State.setLdu_ldu]; split <;> rfl
    · simp only [State.setLdu_ldu]
      split
      · exact Mem.wf_writeAll h16 ..
      · exact h16
    · simp only [State.setLdu_ldu]
      split
      · exact h17
      · exact Mem.wf_writeAll h17 ..

theorem appendWords_written (n : Nat) (ws : List Word) (r : LoadRun) : Written r.state (appendWords x n ws r).state := by
  induction ws generalizing r with
  | nil => exact .refl _
  | cons w ws ih =>
    unfold appendWords
    split
    · split
      · rename_i hw
        exact (writeSegment_written hw).trans (ih ⟨_, _, _, _, _, _⟩)
      · exact .refl _
    · exact ih { r with held := r.held ++ [w] }

theorem setBuffer_written (b : Option LoadBuffer) : Written s (s.setLdu { s.ldu with buf := b }) := ⟨rfl, rfl, rfl, id⟩

theorem dropBuffer_written : Written s (s.setLdu (s.ldu.dropBuffer x)) := by
  unfold Ldu.dropBuffer
  split
  · exact setBuffer_written none
  · exact .refl s

theorem clearStaging_written : Written s (s.setLdu (s.ldu.clearStaging x)) := by
  unfold Ldu.clearStaging
  split_ifs
  · exact ⟨rfl, rfl, rfl, fun ⟨hin, hapart, hlt, hwf, _, h17⟩ => ⟨hin, hapart, hlt, hwf, Mem.wf_nil, h17⟩⟩
  · exact ⟨rfl, rfl, rfl, fun ⟨hin, hapart, hlt, hwf, h16, _⟩ => ⟨hin, hapart, hlt, hwf, h16, Mem.wf_nil⟩⟩
  · exact .refl s

/-! ### LOAD, COMMIT, FINISH (R142 to R145) -/

theorem ownClaim_ok {b : BitVec 3} {c : Claim} (h : ownClaim s x b = .ok c) : s.ldu.claims[x] = some c := by
  unfold ownClaim at h
  split at h
  · cases h
  · split at h <;> cases h
    assumption

theorem ownLoading_ok {b : BitVec 3} {c : Claim} (h : ownLoading s x b = .ok c) :
    s.ldu.claims[x] = some c ∧ c.isChecking = false := by
  unfold ownLoading at h
  split at h
  · cases h
  · rename_i hown
    split at h
    · cases h
    · rename_i hk
      cases h
      exact ⟨ownClaim_ok hown, by simpa using hk⟩

variable {c : Claim}

theorem takeLoad_storeLaws (h : StoreLaws s) (hc : s.ldu.claims[x] = some c) (hl : c.isChecking = false) (ws : List Word) :
    StoreLaws (takeLoad x c ws s).1 := by
  have hw := appendWords_written (x := x) c.segment ws (loadStart x c s)
  have hb := hw.trans (setBuffer_written (bufferOf x (appendWords x c.segment ws (loadStart x c s)).start
    (appendWords x c.segment ws (loadStart x c s)).held))
  refine (h.written hb).reclaim (c := c) ?_ hl.symm rfl rfl
  rw [hb.claims]; exact hc

/-- The flush of a COMMIT or a FINISH writes a segment, and the claim keeps its load state, holder and length. -/
theorem flush_ok {u : State} {d : Claim} {w : Bool} (h : flush x c s = .ok (u, d, w)) :
    Written s u ∧ d.phase = c.phase ∧ d.holder = c.holder ∧ d.length = c.length := by
  unfold flush at h
  split at h
  · cases h
    exact ⟨.refl s, rfl, rfl, rfl⟩
  · split at h <;> cases h
    rename_i hw
    exact ⟨(writeSegment_written hw).trans (setBuffer_written none), rfl, rfl, rfl⟩

theorem flush_error {r : State × Answer} (h : StoreLaws s) (hc : s.ldu.claims[x] = some c) (hr : flush x c s = .error r) :
    StoreLaws r.1 := by
  unfold flush at hr
  split at hr
  · cases hr
  · split at hr <;> cases hr
    exact (h.written (setBuffer_written none)).reclaim (c := c) hc rfl rfl rfl

theorem takeCommit_storeLaws (h : StoreLaws s) (hc : s.ldu.claims[x] = some c) (hl : c.isChecking = false)
    (r : Option Nat) : StoreLaws (takeCommit x c r s).1 := by
  unfold takeCommit
  split
  · rename_i hf
    exact flush_error h hc hf
  · rename_i hf
    obtain ⟨hw, _, hh, hn⟩ := flush_ok hf
    exact (h.written hw).reclaim (c := c) (by rw [hw.claims]; exact hc) hl.symm hh hn

theorem takeFinish_storeLaws (h : StoreLaws s) (hc : s.ldu.claims[x] = some c) (hl : c.isChecking = false) (e : Word) :
    StoreLaws (takeFinish x c e s).1 := by
  unfold takeFinish
  split
  · rename_i hf
    exact flush_error h hc hf
  · rename_i u d _ hf
    obtain ⟨hw, _, hh, hn⟩ := flush_ok hf
    have hu := h.written hw
    have hcu : u.ldu.claims[x] = some c := by rw [hw.claims]; exact hc
    rcases targetSlot_cases x with ⟨k, rfl, hk⟩ | ⟨hk, hx⟩
    · obtain ⟨⟨b, hdir⟩, huse⟩ := hu.claimed hcu
      rw [hl] at hdir
      have hentry : u.pst.finish k = u.pst.setEntry k (.checking b c.length c.holder) := by
        unfold Pst.finish
        rw [hdir]; rfl
      simp only [onSlot, hk, hentry]
      refine hu.setSlot (by simp [claimAgrees, Claim.isChecking, hh, hn]) (by simp [huse]) fun r hr => ?_
      exact hu.2.regionFits (by rw [hdir]; exact hr)
    · simp only [onSlot, hk]
      exact hu.setTable hx _

/-! ### CLAIM and abandonment (R138, R139, R148) -/

theorem abandon_storeLaws (h : StoreLaws s) (hc : s.ldu.claims[x] = some c) : StoreLaws (abandon x s) := by
  have hw : Written s (s.setLdu ((s.ldu.dropBuffer x).clearStaging x)) :=
    (dropBuffer_written (x := x)).trans (clearStaging_written (x := x))
  have hu := h.written hw
  unfold abandon
  rcases targetSlot_cases x with ⟨k, rfl, hk⟩ | ⟨hk, hx⟩
  · have huse := (h.claimed hc).2
    simp only [onSlot, hk]
    refine hu.setSlot rfl ?_ (by simp [SlotEntry.region])
    rw [hw.txe, huse]
    exact fun hf => nomatch hf
  · simp only [onSlot, hk]
    exact hu.setTable hx _

/-- No other region shares a word with one that CLAIM accepts (R138 check 5). -/
theorem overlapping_none {p : Pst} {k : Slot} {b l : Nat} (h : overlapping p k b l = none) {j : Slot} (hj : j ≠ k) :
    ∀ y ∈ p.dir[j].region, apart (b, l) y := by
  intro y hy
  have := List.find?_eq_none.1 h j (mem_allSlots j)
  rw [Option.mem_def] at hy
  simp only [hy, regionsMeet, bne_iff_ne, ne_eq, hj, not_false_eq_true, Bool.and_eq_true, decide_eq_true_eq, true_and,
    not_and_or, Nat.not_lt] at this
  simp only [apart]
  omega

theorem takeClaim_storeLaws (h : StoreLaws s) {b l n : Nat} {u : BitVec 3} (hl : 1 ≤ l)
    (hr : claimRefusal x b l u s = none) : StoreLaws (takeClaim x b l n u s) := by
  have hd := dropBuffer_written (s := s) (x := x)
  have hu := h.written hd
  unfold takeClaim claimRegion
  unfold claimRefusal targetInUse targetOverlap claimTooLong at hr
  rcases targetSlot_cases x with ⟨k, rfl, hk⟩ | ⟨hk, hx⟩
  · rw [hk]
    dsimp only
    rw [hk] at hr
    split at hr
    · cases hr
    · dsimp only at hr
      rw [if_pos (show (slotTarget k).val < 16 from k.isLt)] at hr
      split_ifs at hr with huse hlong
      have hover : overlapping s.pst k b l = none := by simpa using hr
      have hw : Written (s.setLdu (s.ldu.dropBuffer (slotTarget k))) ((s.setLdu (s.ldu.dropBuffer (slotTarget k))).setPst
          { s.pst with store := s.pst.store.clear b l, trims := (s.pst.clearTrims k).trims }) :=
        ⟨rfl, rfl, rfl, fun ⟨hin, hapart, hlt, hwf, hstaging⟩ =>
          ⟨hin, hapart, fun c hc => hlt c (List.mem_filter.1 hc).1, Mem.wf_clear hwf .., hstaging⟩⟩
      refine (hu.written hw).setSlot (k := k) (e := .loading b l u) (by simp [claimAgrees, Claim.isChecking])
        (fun hin => absurd hin huse) fun r hr => ?_
      cases hr
      exact ⟨hl, by simpa using hlong, fun j hj => overlapping_none hover hj⟩
  · rw [hk]
    dsimp only
    exact (hu.written clearStaging_written).setTable hx _

/-! ### The check (R147) -/

theorem clearStaging_setTable (h : StoreLaws s) (hx : ∀ k, slotTarget k ≠ x) :
    StoreLaws ((s.setLdu (s.ldu.clearStaging x)).setClaim x none) := (h.written clearStaging_written).setTable hx none

theorem replaceContactors_txe (w : Nat → Word) (s : State) : (replaceContactors w s).txe = s.txe := by
  unfold replaceContactors
  rw [foldl_txe]
  · exact State.setCtu_txe ..
  · intro u c
    dsimp only
    split
    · split
      · exact State.raise_txe ..
      · rfl
    · rfl

theorem replaceSchedule_txe (w : Nat → Word) (s : State) : (replaceSchedule w s).txe = s.txe := by
  have discard : ∀ (o : Option Occurrence) (u : State), (discardForTable o u).txe = u.txe := by
    intro o u
    cases o <;> rfl
  unfold replaceSchedule
  rw [State.setScu_txe, discard, discard]

/-- Where no slot's content goes live: the claim returns to LOADING, with its slot. -/
theorem reopen_storeLaws (h : StoreLaws s) (hc : s.ldu.claims[x] = some c) (hk : c.isChecking = true) (n : Nat) :
    StoreLaws ((onSlot x Pst.reopen s).setClaim x (some { c with phase := .loading 0, running := n })) := by
  rcases targetSlot_cases x with ⟨k, rfl, hx⟩ | ⟨hx, hn⟩
  · obtain ⟨⟨b, hdir⟩, huse⟩ := h.claimed hc
    rw [hk] at hdir
    have hentry : s.pst.reopen k = s.pst.setEntry k (.loading b c.length c.holder) := by
      unfold Pst.reopen
      rw [hdir]; rfl
    simp only [onSlot, hx, hentry]
    refine h.setSlot (by simp [claimAgrees, Claim.isChecking]) (by simp [huse]) fun r hr => ?_
    exact h.2.regionFits (by rw [hdir]; exact hr)
  · simp only [onSlot, hx]
    exact h.setTable hn _

theorem makeLive_storeLaws (h : StoreLaws s) (hc : s.ldu.claims[x] = some c) (hk : c.isChecking = true) (v : Word) :
    StoreLaws ((makeLive x v s).setClaim x none) := by
  unfold makeLive
  rcases targetSlot_cases x with ⟨k, rfl, hx⟩ | ⟨hx, hn⟩
  · obtain ⟨⟨b, hdir⟩, huse⟩ := h.claimed hc
    rw [hk] at hdir
    have hentry : s.pst.accept v k = s.pst.setEntry k (.valid b c.length v (recLabel (s.pst.slotWord k))) := by
      unfold Pst.accept
      rw [hdir]; rfl
    rw [if_pos (show (slotTarget k).val < 16 from k.isLt)]
    simp only [onSlot, hx, hentry]
    refine h.setSlot rfl (fun _ => rfl) fun r hr => ?_
    exact h.2.regionFits (by rw [hdir]; exact hr)
  · rw [if_neg fun h16 => hn ⟨x.val, h16⟩ rfl]
    have hu := h.usesValid
    refine clearStaging_setTable ?_ hn
    split
    · exact (hu.keepsTxe (replaceContactors_keeps ..) (replaceContactors_txe ..)).storeLaws h
    · exact (hu.keepsTxe (replaceSchedule_keeps ..) (replaceSchedule_txe ..)).storeLaws h

theorem StoreLaws.raise (h : StoreLaws s) (k : NoticeKind) (b : Option (BitVec 8)) (d : List Word) :
    StoreLaws (s.raise k b d) := (h.usesValid.raise k b d).storeLaws h

theorem completeCheck_storeLaws (h : StoreLaws s) (x : Target) : StoreLaws (completeCheck x s) := by
  unfold completeCheck
  split
  · exact h
  · rename_i c hc
    split
    · exact h
    · rename_i hp
      have hk : c.isChecking = true := by rw [Claim.isChecking, hp]
      refine StoreLaws.raise ?_ ..
      unfold actOnCheck
      split
      · exact makeLive_storeLaws h hc hk _
      · exact reopen_storeLaws h hc hk _

theorem lapse_storeLaws (h : StoreLaws s) (x : Target) : StoreLaws (lapse x s) := by
  unfold lapse
  split
  · exact h
  · rename_i c hc
    split
    · exact h
    · exact (abandon_storeLaws h hc).raise ..

/-! ### Commands of the Load Unit -/

/-- A frame that passes the tests of R166 has every parameter in range. -/
theorem precheck_ranges {c : Cmd} {m : Mgmt} (h : precheck c m = none) : ∀ r ∈ c.ranges m, r.2 = true := by
  have hcount : c.admitsCount m.params.length = true := by
    unfold precheck at h
    split_ifs at h with _ hn
    simpa using hn
  exact ((precheck_eq_none hcount).1 h).2

theorem claimBody_storeLaws (h : StoreLaws s) {m : Mgmt} (hm : precheck .claim m = none) : StoreLaws (claimBody m s).1 := by
  have hlen := precheck_ranges hm (2, 1 ≤ m.num 2 && m.num 2 ≤ 2048) (by simp [Cmd.ranges])
  unfold claimBody
  split
  · exact h
  · exact takeClaim_storeLaws h (by simp at hlen; exact hlen.1) ‹_›

theorem loadBody_storeLaws (h : StoreLaws s) (m : Mgmt) : StoreLaws (loadBody m s).1 := by
  unfold loadBody
  split
  · exact h
  · rename_i hown
    obtain ⟨hc, hl⟩ := ownLoading_ok hown
    split
    · exact h
    · exact takeLoad_storeLaws h hc hl _

theorem commitBody_storeLaws (h : StoreLaws s) (m : Mgmt) : StoreLaws (commitBody m s).1 := by
  unfold commitBody
  split
  · exact h
  · rename_i hown
    obtain ⟨hc, hl⟩ := ownLoading_ok hown
    split
    · exact h
    · exact takeCommit_storeLaws h hc hl _

theorem finishBody_storeLaws (h : StoreLaws s) (m : Mgmt) : StoreLaws (finishBody m s).1 := by
  unfold finishBody
  split
  · exact h
  · rename_i hown
    obtain ⟨hc, hl⟩ := ownLoading_ok hown
    split
    · exact h
    · exact takeFinish_storeLaws h hc hl _

theorem unclaimBody_storeLaws (h : StoreLaws s) (m : Mgmt) : StoreLaws (unclaimBody m s).1 := by
  unfold unclaimBody
  split
  · exact h
  · exact abandon_storeLaws h (ownClaim_ok ‹_›)

end Sys2Proof.Machine
end

section
/-! SUPPORT. The laws of the store at reset, as time passes, and under every command. -/
namespace Sys2Proof.Machine

/-! ## The laws of the store at reset and under every command -/

variable {s : State}

@[simp] theorem replicate_get {α : Type} {n : Nat} (x : α) (i : Fin n) : (Vector.replicate n x)[i] = x := by simp

/-- With an empty directory, no claim and no slot in use the laws stand. -/
theorem reset_storeLaws : StoreLaws State.reset := by
  have hdir : ∀ k : Slot, State.reset.pst.dir[k] = .empty := replicate_get _
  have hclaims : ∀ x : Target, State.reset.ldu.claims[x] = none := replicate_get _
  refine ⟨⟨?_, fun k => ?_⟩, fun k => ?_, fun j k _ => ?_, List.forall_mem_nil _, Mem.wf_nil, Mem.wf_nil, Mem.wf_nil⟩
  · intro k hk
    cases hk
  · rw [hdir, hclaims]; rfl
  · rw [hdir]; exact fun _ h => nomatch h
  · rw [hdir]; exact fun _ h => nomatch h

/-- RESTART leaves the VALID slots and no claim (R9, R150). -/
theorem restartBlocks_storeLaws (h : StoreLaws s) : StoreLaws (restartBlocks s) := by
  obtain ⟨_, hin, hapart, hlt, hwf, _⟩ := h
  have hdir : ∀ k : Slot, (restartBlocks s).pst.dir[k] = s.pst.dir[k].restart := fun k => map_get ..
  have hclaims : ∀ x : Target, (restartBlocks s).ldu.claims[x] = none := replicate_get _
  have hregion : ∀ (e : SlotEntry) r, r ∈ e.restart.region → r ∈ e.region := by
    intro e r hr
    cases e <;> first | exact hr | cases hr
  refine ⟨⟨?_, fun k => ?_⟩, fun k r hr => ?_, fun j k hjk x hx y hy => ?_, hlt, hwf, Mem.wf_nil, Mem.wf_nil⟩
  · intro k hk
    cases hk
  · rw [hdir, hclaims]
    cases s.pst.dir[k] <;> rfl
  · rw [hdir] at hr
    exact hin k r (hregion _ r hr)
  · rw [hdir] at hx hy
    exact hapart j k hjk x (hregion _ x hx) y (hregion _ y hy)

/-! ### Time -/

theorem ArrayState.tick_slots (a : ArrayState) : a.tick.slots = a.slots := by
  cases a with
  | readyUp c g => cases g <;> rfl
  | _ => rfl

theorem claimAgrees_tick (e : SlotEntry) (c : Option Claim) : claimAgrees e (c.map Claim.tick) = claimAgrees e c := by
  cases c with
  | none => rfl
  | some c => exact claimAgrees_congr (c := c) (d := c.tick) (by obtain ⟨p, _⟩ := c; cases p <;> rfl) rfl rfl e

theorem tickMs_storeLaws (h : StoreLaws s) : StoreLaws (tickMs s) := by
  obtain ⟨⟨huse, hagree⟩, hstore⟩ := h
  have hslots : ∀ k, (tickMs s).txe.inUse k = s.txe.inUse k := by
    intro k
    simp only [Txe.inUse, tickMs, ArrayState.tick_slots]
  refine ⟨⟨fun k hk => huse k (hslots k ▸ hk), fun k => ?_⟩, hstore⟩
  show claimAgrees s.pst.dir[k] (s.ldu.claims.map fun c => c.map Claim.tick)[slotTarget k] = true
  rw [map_get, claimAgrees_tick]
  exact hagree k

theorem idle_storeLaws (h : StoreLaws s) : StoreLaws (idle s) := by
  unfold idle
  split
  · split
    · exact h
    · split
      · unfold tick
        dsimp only
        split
        · exact tickMs_storeLaws (s := tickQuarter s) h
        · exact h
      · exact h
  · exact h

/-! ### Commands -/

theorem whileRunning_storeLaws {f : State → State} (h : StoreLaws s) (hf : StoreLaws (f s)) :
    StoreLaws (whileRunning f s) := by
  unfold whileRunning
  split
  · exact hf
  · exact h

theorem whileCounting_storeLaws {f : State → State} (h : StoreLaws s) (hf : StoreLaws (f s)) :
    StoreLaws (whileCounting f s) := by
  unfold whileCounting
  split
  · exact hf
  · exact h

theorem finishCommand_storeLaws (m : Mgmt) {r : State × Answer} (h : StoreLaws r.1) : StoreLaws (finishCommand m r) := h

/-- A command of CMU keeps the laws when its block does on every frame that passes the tests (R166). -/
theorem serve_storeLaws (h : StoreLaws s) {c : Cmd} {body : Mgmt → State → State × Answer}
    (hb : ∀ m, precheck c m = none → StoreLaws (body m s).1) : StoreLaws (whileRunning (serve c body) s) := by
  refine whileRunning_storeLaws h ?_
  unfold serve
  split
  · exact h
  · rename_i m _ _
    split
    · unfold runCommand
      split
      · exact h
      · exact finishCommand_storeLaws m (hb m ‹_›)
    · exact h

theorem serveUnknown_storeLaws (h : StoreLaws s) : StoreLaws (serveUnknown s) := by
  unfold serveUnknown
  split
  · exact h
  · split
    · exact finishCommand_storeLaws _ h
    · exact h

/-- Every command keeps the laws of the store. -/
theorem exec_storeLaws (i : Instr) (h : StoreLaws s) : ∃ t, exec i s = .next t ∧ StoreLaws t := by
  have u := h.usesValid
  have running : ∀ {f : State → State}, UsesValid s (f s) → StoreLaws (whileRunning f s) := fun hf =>
    whileRunning_storeLaws h (hf.storeLaws h)
  have counting : ∀ {f : State → State}, UsesValid s (f s) → StoreLaws (whileCounting f s) := fun hf =>
    whileCounting_storeLaws h (hf.storeLaws h)
  have served : ∀ {c : Cmd} {body : Mgmt → State → State × Answer}, (∀ m, UsesValid s (body m s).1) →
      StoreLaws (whileRunning (serve c body) s) := fun hb => serve_storeLaws h fun m _ => (hb m).storeLaws h
  cases i with
  | powerOnReset a => exact ⟨_, rfl, reset_storeLaws⟩
  | resetAsserted => exact ⟨_, rfl, reset_storeLaws⟩
  | refclkStopped => exact ⟨_, rfl, h⟩
  | refclkReturned => exact ⟨_, rfl, h⟩
  | sampleFrame rx => exact ⟨_, rfl, running (u.receiveSample rx)⟩
  | missedFrame => exact ⟨_, rfl, counting u.missFrame⟩
  | localPaceFrame => exact ⟨_, rfl, counting u.localFrame⟩
  | lossTimerExpiry => exact ⟨_, rfl, counting u.lossExpiry⟩
  | mgmtFrame rx => exact ⟨_, rfl, running (u.receiveMgmt rx)⟩
  | timeFrame rx => exact ⟨_, rfl, running (u.receiveTime rx)⟩
  | releaseFrame rx => exact ⟨_, rfl, running (u.receiveRelease rx)⟩
  | emptyFrame rx => exact ⟨_, rfl, running (u.receiveEmpty rx)⟩
  | status => exact ⟨_, rfl, served fun _ => u⟩
  | switch => exact ⟨_, rfl, served u.switchBody⟩
  | withdraw => exact ⟨_, rfl, served u.withdrawBody⟩
  | go => exact ⟨_, rfl, served u.goBody⟩
  | continueTx => exact ⟨_, rfl, served u.continueBody⟩
  | retreat => exact ⟨_, rfl, served u.retreatBody⟩
  | mute => exact ⟨_, rfl, served fun _ => (u.withdraw .mute).muteArray _⟩
  | move => exact ⟨_, rfl, served u.moveBody⟩
  | ackFault => exact ⟨_, rfl, served fun _ => u.setMon _⟩
  | trimClear => exact ⟨_, rfl, served u.trimClearBody⟩
  | scheduleHold => exact ⟨_, rfl, served u.scheduleHoldBody⟩
  | claim => exact ⟨_, rfl, serve_storeLaws h fun _ hm => claimBody_storeLaws h hm⟩
  | load => exact ⟨_, rfl, serve_storeLaws h fun m _ => loadBody_storeLaws h m⟩
  | commit => exact ⟨_, rfl, serve_storeLaws h fun m _ => commitBody_storeLaws h m⟩
  | finish => exact ⟨_, rfl, serve_storeLaws h fun m _ => finishBody_storeLaws h m⟩
  | unclaim => exact ⟨_, rfl, serve_storeLaws h fun m _ => unclaimBody_storeLaws h m⟩
  | read => exact ⟨_, rfl, served fun _ => u⟩
  | reporting => exact ⟨_, rfl, served fun _ => u.setRif _⟩
  | clearOverflow => exact ⟨_, rfl, served fun _ => u.setCmu _⟩
  | restart => exact ⟨_, rfl, serve_storeLaws h fun _ _ => restartBlocks_storeLaws h⟩
  | interlockOpening => exact ⟨_, rfl, u.ilkLineOpen.storeLaws h⟩
  | interlockLineClosed => exact ⟨_, rfl, (u.setDsy _).storeLaws h⟩
  | interlockQualified => exact ⟨_, rfl, counting u.ilkQualified⟩
  | rdyLineChange t b => exact ⟨_, rfl, (u.setDsy _).storeLaws h⟩
  | cabinetDebounceExpiry t => exact ⟨_, rfl, counting (u.rdyDebounced t)⟩
  | auxInputChange c a b => exact ⟨_, rfl, (u.setCtu _).storeLaws h⟩
  | auxDebounceExpiry c a => exact ⟨_, rfl, counting (u.auxDebounced c a)⟩
  | travelLimitExpiry c => exact ⟨_, rfl, counting (u.travelExpired c)⟩
  | settleTimerExpiry => exact ⟨_, rfl, counting u.settleExpired⟩
  | gateTimerExpiry => exact ⟨_, rfl, counting u.gateExpired⟩
  | checkCompletion x => exact ⟨_, rfl, whileRunning_storeLaws h (completeCheck_storeLaws h x)⟩
  | claimLapse x => exact ⟨_, rfl, whileCounting_storeLaws h (lapse_storeLaws h x)⟩
  | monitorRecord rx => exact ⟨_, rfl, running (u.takeRecord rx)⟩
  | absenceTimerExpiry => exact ⟨_, rfl, counting u.absenceExpiry⟩
  | holdOffExpiry => exact ⟨_, rfl, counting (u.setMon _)⟩
  | staleTimerExpiry => exact ⟨_, rfl, counting u.staleExpiry⟩
  | unknownCommand => exact ⟨_, rfl, whileRunning_storeLaws h (serveUnknown_storeLaws h)⟩

/-- Settles O57: an operation that loads nothing uses VALID slots only, an operation of the Load Unit changes one slot with its
claim record and keeps its region apart from the others. -/
theorem stepsKeepTheStoreLaws : Obligations.StepsKeepTheStoreLaws := by
  intro s t hstep huse hstore
  have h : StoreLaws s := ⟨huse, hstore⟩
  unfold step at hstep
  split at hstep
  · cases hstep
    exact idle_storeLaws h
  · rename_i c rest _
    obtain ⟨u, hu, hlaws⟩ := exec_storeLaws (s := s.setPending rest) c h
    rw [hu] at hstep
    cases hstep
    exact hlaws

end Sys2Proof.Machine
end

section
/-! SUPPORT. Every law at reset; the tables, MON and SCU after power-on reset and after RESTART. -/
namespace Sys2Proof.Machine

/-! ## Power-on reset and RESTART -/

/-! ### Entries of the reset blocks -/

@[simp] theorem State.reset_tower (t : TowerIx) : State.reset.dsy.towers[t] = Tower.reset := replicate_get ..
@[simp] theorem State.reset_unit (c : ContactorIx) : State.reset.ctu.units[c] = ContactorUnit.reset := replicate_get ..
@[simp] theorem State.reset_claim (x : Target) : State.reset.ldu.claims[x] = none := replicate_get ..
@[simp] theorem Mon.reset_tower (t : TowerIx) :
    Mon.reset.towers[t] = { status := .held, count := 0, limitNoticed := false } := replicate_get ..

/-- Settles O53: each law is read off the reset value of the block it speaks of. -/
theorem resetKeepsEveryLaw : Obligations.ResetKeepsEveryLaw := by
  have queue : QueueLaw State.reset := by decide
  have ring : RingLaw State.reset := by decide
  have driveOff : DriveOffLaw State.reset := fun _ t => by rw [State.reset_tower]; rfl
  have tower : TowerLaw State.reset := fun t => by rw [State.reset_tower]; decide
  have contactor : ContactorLaw State.reset := fun c e he => by rw [State.reset_unit] at he; cases he
  have load : LoadLaw State.reset := by
    refine ⟨fun x c hc => ?_, fun b hb => nomatch hb⟩
    rw [State.reset_claim] at hc
    cases hc
  have engine : EngineLaw State.reset := by decide
  have monitor : MonitorLaw State.reset :=
    ⟨rfl, fun _ => ⟨rfl, fun t => congrArg MonTower.status (Mon.reset_tower t)⟩,
      fun t _ => congrArg MonTower.count (Mon.reset_tower t)⟩
  have schedule : ScheduleLaw State.reset := by decide
  exact ⟨queue, ring, driveOff, tower, contactor, reset_storeLaws.1, reset_storeLaws.2, load, engine, monitor, schedule⟩

/-! ### RESTART -/

/-- A command that CMU is about to execute is handed to its block and answered (R166). -/
theorem serve_served {c : Cmd} {m : Mgmt} {s : State} (h : Serves c m s) (body : Mgmt → State → State × Answer) :
    whileRunning (serve c body) s = finishCommand m (body m s) := by
  obtain ⟨hrun, hhead, hcode, hpass⟩ := h
  exact serve_taken body hrun hhead hcode hpass

theorem exec_restart {m : Mgmt} {s : State} (h : Serves .restart m s) :
    exec .restart s = .next (finishCommand m (restartBody m s)) := congrArg Host.Outcome.next (serve_served h restartBody)

theorem SlotEntry.restart_eq (e : SlotEntry) : e.restart = if e.isValid then e else .empty := by cases e <;> rfl

/-- MON at RESTART: outside ACTIVE, and every tower as at power-on (R121). -/
theorem Mon.restart_tower (m : Mon) (t : TowerIx) :
    m.restart.towers[t] = { status := .held, count := 0, limitNoticed := false } := by
  simp only [Mon.restart, Mon.clearLimits, Mon.leaveActive, map_get]

/-- Settles O5: at power-on each table has its reset value but for the input lines, which stay; RESTART acts block by block. -/
theorem tablesMonitorAndScheduleAtReset : Obligations.TablesMonitorAndScheduleAtReset := by
  constructor
  · intro a s
    have unit : ∀ c : ContactorIx, (powerOn a s).ctu.units[c] = s.ctu.units[c].powerOn := fun c => map_get ..
    have contactor : ∀ c : ContactorIx, (powerOn a s).ctu.units[c].entry = none ∧ (powerOn a s).ctu.line c = false
        ∧ (powerOn a s).ctu.units[c].reading = .neither
        ∧ (powerOn a s).ctu.units[c].openLine = s.ctu.units[c].openLine
        ∧ (powerOn a s).ctu.units[c].closedLine = s.ctu.units[c].closedLine
        ∧ (powerOn a s).ctu.units[c].openTimer = (if s.ctu.units[c].openLine then some 0 else none)
        ∧ (powerOn a s).ctu.units[c].closedTimer = (if s.ctu.units[c].closedLine then some 0 else none) := by
      intro c
      simp only [Ctu.line, unit]
      exact ⟨rfl, rfl, rfl, rfl, rfl, rfl, rfl⟩
    have trim : ∀ (k : Slot) (u : TowerIx), (powerOn a s).pst.trim k u = { amp := 0, phase := 0 } := by
      intro k u
      show (Vector.replicate 16 (Vector.replicate 8 ({ amp := 0, phase := 0 } : Trim)))[k][u] = _
      rw [replicate_get, replicate_get]
    exact ⟨powerOn a s, rfl, replicate_get _, fun _ => rfl, trim, replicate_get _, rfl, fun _ => ⟨rfl, rfl⟩, contactor, rfl,
      rfl, rfl, rfl, rfl, rfl, Mon.reset_tower, rfl, rfl, replicate_get _, rfl, rfl, rfl⟩
  · intro m s h
    refine ⟨_, exec_restart h, fun k => ?_, rfl, rfl, replicate_get _, rfl, rfl, rfl, rfl, rfl, rfl, rfl, rfl, rfl,
      s.mon.restart_tower, rfl⟩
    exact (map_get SlotEntry.restart s.pst.dir k).trans (SlotEntry.restart_eq _)

end Sys2Proof.Machine
end

section
/-! SUPPORT. A trim update, a trim step and TRIM_CLEAR, each said once. -/
namespace Sys2Proof.Machine

/-! ## The trim loop (R20, R117 to R120) -/

/-! ### A trim update in PST (R20) -/

theorem Pst.trimUpdate_invalid {p : Pst} {k : Slot} (h : p.isValid k = false) (t : TowerIx) (a b : Int) :
    p.trimUpdate k t a b = p := if_neg (by simp [h])

theorem Pst.trimUpdate_valid {p : Pst} {k : Slot} (h : p.isValid k = true) (t : TowerIx) (a b : Int) :
    p.trimUpdate k t a b = { p with trims := modifyAt p.trims k fun ts => modifyAt ts t fun x =>
      { amp := clamp (recAmpBound (p.slotWord k)) (x.amp + 16 * a)
        phase := clamp (recPhaseBound (p.slotWord k)) (x.phase + 2 * b) } } := if_pos h

/-- The trim of the slot and tower takes the step, limited at the bounds; every other trim stays. -/
theorem Pst.trimUpdate_trim {p : Pst} {k : Slot} (h : p.isValid k = true) (t : TowerIx) (a b : Int) (j : Slot)
    (u : TowerIx) : (p.trimUpdate k t a b).trim j u = if j = k ∧ u = t then
      { amp := clamp (recAmpBound (p.slotWord k)) ((p.trim k t).amp + 16 * a)
        phase := clamp (recPhaseBound (p.slotWord k)) ((p.trim k t).phase + 2 * b) } else p.trim j u := by
  rw [Pst.trimUpdate_valid h]
  unfold Pst.trim
  dsimp only
  rw [modifyAt_get]
  by_cases hj : j = k
  · subst hj
    rw [if_pos rfl, modifyAt_get]
    simp only [true_and]
  · rw [if_neg hj, if_neg (fun e => hj e.1)]

/-! ### The trim step of a tower (R117, R119) -/

section
variable {w : Nat → Word} {k : Slot} {t : TowerIx} {r : Nat} {m : Int} {s : State}

theorem ampPart_eq : ampPart w t r = if recRatioBand w * recRatio w t < ((r : Int) - recRatio w t).natAbs * 1000 then
    (if r < recRatio w t then 1 else -1) else 0 := by
  unfold ampPart ratioError
  simp only [Nat.cast_lt]

theorem phasePart_eq : phasePart w t m = if recPhaseBand w < (fold (m - recLicPhase w t)).natAbs then
    (if 0 < fold (m - recLicPhase w t) then -1 else 1) else 0 := rfl

/-- A pattern that does not trim, the reference tower and a step of two zeros hand nothing on. -/
theorem trimTower_idle (h : recTrimOn w = false ∨ recReference w = some t ∨ (ampPart w t r = 0 ∧ phasePart w t m = 0)) :
    trimTower w k t r m s = s := if_pos h

theorem noticeLimit_pst (a b : Int) : (noticeLimit w k t a b s).pst = s.pst := by
  unfold noticeLimit
  split
  · rfl
  · split <;> rfl

/-- Any other step goes to PST, after the notice of a limit. -/
theorem trimTower_step (hon : recTrimOn w = true) (href : recReference w ≠ some t)
    (hstep : ¬ (ampPart w t r = 0 ∧ phasePart w t m = 0)) :
    trimTower w k t r m s = (noticeLimit w k t (ampPart w t r) (phasePart w t m) s).setPst
      (s.pst.trimUpdate k t (ampPart w t r) (phasePart w t m)) := by
  unfold trimTower
  dsimp only
  rw [if_neg (by simp only [hon, href, hstep, Bool.true_eq_false, or_self, not_false_eq_true]), noticeLimit_pst]

/-- Nothing is noticed away from the bounds, or twice. -/
theorem noticeLimit_none {a b : Int} (h : atLimit w (s.pst.trim k t) a b = none ∨ s.mon.towers[t].limitNoticed = true) :
    noticeLimit w k t a b s = s := by
  unfold noticeLimit
  split
  · rfl
  · rename_i hq
    rw [hq] at h
    rw [if_pos (by simpa using h)]

/-- At a bound TRIM_LIMIT is raised and the flag set (R119). -/
theorem noticeLimit_some {a b : Int} {q : Nat} {v : Int} (hq : atLimit w (s.pst.trim k t) a b = some (q, v))
    (hn : s.mon.towers[t].limitNoticed = false) : noticeLimit w k t a b s
      = (s.setMon { s.mon with towers := setAt s.mon.towers t { s.mon.towers[t] with limitNoticed := true } }).raise
          .trimLimit (subjectOf t.val) [word k.val, word q, signedWord v] := by
  unfold noticeLimit
  rw [hq]
  dsimp only
  rw [if_neg fun he => Bool.noConfusion (hn.symm.trans he)]
  rfl

/-! The quantity at its bound: the amplitude before the phase (log 36). -/

theorem atLimit_amp {x : Trim} {a : Int} (b : Int) (h : a ≠ 0 ∧ x.amp = a * recAmpBound w) :
    atLimit w x a b = some (1, x.amp) := if_pos h

theorem atLimit_phase {x : Trim} {a b : Int} (ha : ¬ (a ≠ 0 ∧ x.amp = a * recAmpBound w))
    (h : b ≠ 0 ∧ x.phase = b * recPhaseBound w) : atLimit w x a b = some (2, x.phase) := by
  rw [atLimit, if_neg ha, if_pos h]

theorem atLimit_none {x : Trim} {a b : Int}
    (h : ¬ ((a ≠ 0 ∧ x.amp = a * recAmpBound w) ∨ (b ≠ 0 ∧ x.phase = b * recPhaseBound w))) :
    atLimit w x a b = none := by
  rw [atLimit, if_neg fun hp => h (.inl hp), if_neg fun hp => h (.inr hp)]

end

/-! ### TRIM_CLEAR (R120) -/

theorem activeSlot_iff (a : ArrayState) (k : Slot) : a.activeSlot = some k ↔ a = .active k := by
  cases a <;> simp [ArrayState.activeSlot]

theorem Pst.clearTrims_trim (p : Pst) (k j : Slot) (u : TowerIx) :
    (p.clearTrims k).trim j u = if j = k then { amp := 0, phase := 0 } else p.trim j u := by
  unfold Pst.trim Pst.clearTrims
  dsimp only
  rw [setAt_get]
  split
  · exact replicate_get ..
  · rfl

theorem exec_trimClear {m : Mgmt} {s : State} (h : Serves .trimClear m s) :
    exec .trimClear s = .next (finishCommand m (trimClearBody m s)) := congrArg Host.Outcome.next (serve_served h trimClearBody)

/-- The slot word of a TRIM_CLEAR that passes its range test is a slot number. -/
theorem slotParam_val {m : Mgmt} (h : precheck .trimClear m = none) : (slotParam m).val = m.num 0 := by
  have hr : m.num 0 ≤ 15 := by simpa using precheck_ranges h (0, m.num 0 ≤ 15) (by simp [Cmd.ranges])
  exact Nat.mod_eq_of_lt (by omega)

theorem trimClearBody_eq (m : Mgmt) (s : State) : trimClearBody m s
    = ((s.setPst (s.pst.clearTrims (slotParam m))).setMon
        (if s.txe.array = .active (slotParam m) then s.mon.clearLimits else s.mon), answer .done []) := by
  unfold trimClearBody
  dsimp only
  simp only [activeSlot_iff]
  split <;> rfl

theorem Mon.clearLimits_tower (u : Mon) (t : TowerIx) :
    u.clearLimits.towers[t] = { u.towers[t] with limitNoticed := false } := map_get ..

/-- Settles O52: PST's update in its two cases, MON's step with its notice by the quantity that stands at its bound, and
TRIM_CLEAR by its body. -/
theorem trimStepsAreBounded : Obligations.TrimStepsAreBounded := by
  refine ⟨fun p k t a b => ⟨fun h => Pst.trimUpdate_invalid h t a b, fun h => ⟨?_, ?_, fun j u hju => ?_⟩⟩, ?_, ?_⟩
  · rw [Pst.trimUpdate_valid h]
  · rw [Pst.trimUpdate_trim h, if_pos ⟨rfl, rfl⟩]; rfl
  · rw [Pst.trimUpdate_trim h, if_neg (by tauto)]
  · intro w k t r m s
    dsimp only
    rw [← ampPart_eq, ← phasePart_eq]
    refine ⟨fun h => trimTower_idle h, fun hon href hstep => ?_⟩
    rw [trimTower_step hon href hstep]
    refine ⟨fun h => ?_, fun hlimit hfresh => ?_⟩
    · rw [noticeLimit_none (h.imp atLimit_none id)]
    · by_cases hamp : ampPart w t r ≠ 0 ∧ (s.pst.trim k t).amp = ampPart w t r * recAmpBound w
      · refine ⟨_, congrArg (State.setPst · _) (noticeLimit_some (atLimit_amp _ hamp) hfresh), fun _ _ => rfl, fun h => ?_⟩
        exact absurd hamp (by tauto)
      · refine ⟨_, congrArg (State.setPst · _)
          (noticeLimit_some (atLimit_phase hamp (hlimit.resolve_left hamp)) hfresh), fun h1 h2 => ?_, fun _ => rfl⟩
        exact absurd ⟨h1, h2⟩ hamp
  · intro m s h
    refine ⟨slotParam m, (trimClearBody m s).1, slotParam_val h.2.2.2, ?_, ?_, fun u => ?_, fun j u hj => ?_, fun u => ?_⟩
    · rw [exec_trimClear h, trimClearBody_eq]; rfl
    · rw [trimClearBody_eq]
      dsimp only
      split <;> rfl
    · rw [trimClearBody_eq]
      exact (Pst.clearTrims_trim ..).trans (if_pos rfl)
    · rw [trimClearBody_eq]
      exact (Pst.clearTrims_trim ..).trans (if_neg hj)
    · rw [trimClearBody_eq]
      dsimp only [State.setMon_mon]
      split
      · exact Mon.clearLimits_tower ..
      · rfl

end Sys2Proof.Machine
end

section
/-! SUPPORT. The validation items held to the rows of R17, R51 and R127, and the fields of a record in its words. -/
namespace Sys2Proof.Machine

/-! ## Validation items (R17, R51, R127) -/

/-! ### Items in a list -/

/-- An item that reports its row's number and offset agrees with the row when it passes on the row's condition. -/
theorem judged {n b : Nat} {passes : Prop} {pass : Bool} (h : pass = true ↔ passes) :
    ItemRow.judgedBy ⟨n, b, passes⟩ ⟨n, pass, b⟩ := ⟨rfl, h, fun _ => rfl⟩

theorem judged_append {r r' : List ItemRow} {i i' : List Item} (h : List.Forall₂ ItemRow.judgedBy r i)
    (h' : List.Forall₂ ItemRow.judgedBy r' i') : List.Forall₂ ItemRow.judgedBy (r ++ r') (i ++ i') := List.rel_append h h'

theorem judged_flatMap {α : Type} {f : α → List ItemRow} {g : α → List Item} (l : List α)
    (h : ∀ a, List.Forall₂ ItemRow.judgedBy (f a) (g a)) : List.Forall₂ ItemRow.judgedBy (l.flatMap f) (l.flatMap g) := by
  induction l with
  | nil => exact .nil
  | cons a l ih => exact judged_append (h a) ih

/-- Items that agree with rows all pass exactly when every row's condition holds. -/
theorem firstFailure_none_iff {rows : List ItemRow} {items : List Item} (h : List.Forall₂ ItemRow.judgedBy rows items) :
    firstFailure items = none ↔ ∀ r ∈ rows, r.passes := by
  unfold firstFailure
  rw [List.find?_eq_none]
  simp only [Bool.not_eq_true, Bool.not_eq_false']
  induction h with
  | nil => simp
  | cons hj _ ih =>
    obtain ⟨_, hpass, _⟩ := hj
    rw [List.forall_mem_cons, List.forall_mem_cons, ih, hpass]

theorem within_iff {lo hi n : Nat} : within lo hi n = true ↔ lo ≤ n ∧ n ≤ hi := by simp [within]

/-- A field shows 0 or 1. -/
theorem le_one_iff {n : Nat} : decide (n ≤ 1) = true ↔ n = 0 ∨ n = 1 := by
  rw [decide_eq_true_eq]; omega

/-! ### Tables (R51, R127) -/

theorem contactorItems_judged (w : Nat → Word) :
    List.Forall₂ ItemRow.judgedBy (contactorRows w) (contactorTableItems w) := by
  refine .cons (judged decide_eq_true_iff) (judged_flatMap _ fun j => ?_)
  refine .cons (judged decide_eq_true_iff) <| .cons (judged ?_) <| .cons (judged ?_) <| .cons (judged within_iff) .nil
  · simp [← BitVec.toNat_inj]
  · simp

/-- Two entries share a month when some month's bit stands in both words. -/
theorem monthFields_meet (a b : Word) :
    monthField a &&& monthField b ≠ 0 ↔ ∃ m < 12, a.getLsbD m = true ∧ b.getLsbD m = true := by
  rw [Ne, set_eq_zero]
  simp only [monthField, has, BitVec.getLsbD_and, BitVec.getLsbD_setWidth]
  constructor
  · intro h
    push Not at h
    obtain ⟨m, hm⟩ := h
    exact ⟨m.val, m.isLt, by simpa using hm⟩
  · rintro ⟨m, hm, ha, hb⟩ h
    simpa [hm, ha, hb] using h ⟨m, hm⟩

theorem entriesConflict_iff (a b : SchedEntry) : entriesConflict a b = true
    ↔ a.enabled = true ∧ b.enabled = true ∧ a.minute = b.minute ∧ a.months &&& b.months ≠ 0 := by
  simp [entriesConflict, and_assoc]

theorem scheduleItems_judged (w : Nat → Word) :
    List.Forall₂ ItemRow.judgedBy (scheduleRows w) (scheduleTableItems w) := by
  refine .cons (judged decide_eq_true_iff) (judged_flatMap _ fun j => ?_)
  refine .cons (judged decide_eq_true_iff) <| .cons (judged ?_) <| .cons (judged le_one_iff) <| .cons (judged ?_) <|
    .cons (judged decide_eq_true_iff) <| .cons (judged decide_eq_true_iff) <| .cons (judged ?_) .nil
  · simp
  · exact within_iff.trans (and_congr_right' Nat.lt_succ_iff.symm)
  · simp only [List.all_eq_true, List.mem_range, Bool.not_eq_true', ← Bool.not_eq_true, entriesConflict_iff, stagedEntry,
      beq_iff_eq, monthFields_meet]
    constructor
    · rintro h hj ⟨i, hi, hei, hmin, hshare⟩
      exact h i hi ⟨hei, hj, hmin, hshare⟩
    · rintro h i hi ⟨hei, hj, hmin, hshare⟩
      exact h hj ⟨i, hi, hei, hmin, hshare⟩

/-! ### Fields of a record (R11 to R15, 11.4) -/

theorem allTowers_eq : allTowers = List.finRange 8 := by decide

theorem has_recTowers (w : Nat → Word) (t : TowerIx) : has (recTowers w) t = (w 3).getLsbD t.val := by
  simp [has, recTowers, t.isLt]

theorem recReference_iff (w : Nat → Word) (t : TowerIx) : recReference w = some t ↔ (w 4).toNat = t.val := by
  unfold recReference
  split
  · simp [Fin.ext_iff]
  · simp only [reduceCtorEq, false_iff]
    omega

theorem recFallback_iff (w : Nat → Word) (k : Slot) : recFallback w = some k ↔ (w 12).toNat = k.val := by
  unfold recFallback
  split
  · simp [Fin.ext_iff]
  · simp only [reduceCtorEq, false_iff]
    omega

/-- The towers of a record in ascending order. -/
theorem recTowers_list (w : Nat → Word) :
    allTowers.filter (has (recTowers w)) = (List.finRange 8).filter fun t => (w 3).getLsbD t.val := by
  rw [allTowers_eq]
  exact List.filter_congr fun t _ => by rw [has_recTowers]

theorem countOffset_eq (w : Nat → Word) :
    countOffset w = 16 + 7 * ((List.finRange 8).filter fun t => (w 3).getLsbD t.val).length := by
  rw [countOffset, towerCount, recTowers_list]

/-- In an ascending list each tower stands at the number of towers below it. -/
theorem zipIdx_ascending {l : List TowerIx} (h : l.Pairwise (· < ·)) (n : Nat) :
    l.zipIdx n = l.map fun t => (t, n + (l.filter fun u => decide (u < t)).length) := by
  induction l generalizing n with
  | nil => rfl
  | cons a l ih =>
    obtain ⟨ha, hl⟩ := List.pairwise_cons.1 h
    have hnone : (l.filter fun u => decide (u < a)) = [] := by
      rw [List.filter_eq_nil_iff]
      intro u hu
      simpa using (ha u hu).le
    rw [List.zipIdx_cons, ih hl, List.map_cons]
    congr 1
    · simp [hnone]
    · refine List.map_congr_left fun t ht => ?_
      simp [ha t ht]
      omega

theorem entryIndex_eq (w : Nat → Word) (t : TowerIx) : entryIndex (recTowers w) t
    = ((allTowers.filter (has (recTowers w))).filter fun u => decide (u < t)).length := by
  rw [entryIndex, List.filter_filter]
  congr 1
  exact List.filter_congr fun u _ => Bool.and_comm ..

/-- The rows of R17 with each tower's entry at the index of the tower. -/
theorem patternRows_eq (k : Slot) (live : Ctu) (w : Nat → Word) : patternRows k live w
    = headerRows k w
      ++ ((allTowers.filter (has (recTowers w))).flatMap fun t => entryRows w t (16 + 7 * entryIndex (recTowers w) t))
      ++ [⟨25, countOffset w, (w (countOffset w)).toNat ≤ 24⟩]
      ++ (List.range (min (w (countOffset w)).toNat 24)).flatMap (requirementRows live w (countOffset w)) := by
  have hsorted : (allTowers.filter (has (recTowers w))).Pairwise (· < ·) := List.Pairwise.filter _ (by decide)
  unfold patternRows
  simp only [← recTowers_list, zipIdx_ascending hsorted, List.flatMap_map, Nat.zero_add, ← entryIndex_eq]
  rw [recTowers_list, ← countOffset_eq]

/-! ### A pattern record (R17) -/

/-- The first of four characters that fails a test stands in word 1 + i / 2: the first word or the second. -/
theorem firstBad_word (p : Nat → Prop) [DecidablePred p] {bad : Option Nat}
    (hbad : bad = [0, 1, 2, 3].find? fun i => !decide (p i)) :
    (bad.isNone = true ↔ ∀ i < 4, p i) ∧ (bad.isNone = false → 1 + bad.getD 0 / 2 = if p 0 ∧ p 1 then 2 else 1) := by
  have hnone : bad.isNone = true ↔ ∀ i < 4, p i := by
    rw [Option.isNone_iff_eq_none, hbad, List.find?_eq_none]
    show (∀ i ∈ List.range 4, _) ↔ _
    simp only [List.mem_range, Bool.not_eq_true', decide_eq_false_iff_not, not_not]
  refine ⟨hnone, fun hsome => ?_⟩
  by_cases h0 : p 0
  · by_cases h1 : p 1
    · by_cases h2 : p 2
      · by_cases h3 : p 3
        · simp [hbad, h0, h1, h2, h3] at hsome
        · simp [hbad, h0, h1, h2, h3]
      · simp [hbad, h0, h1, h2]
    · simp [hbad, h0, h1]
  · simp [hbad, h0]

theorem badLabelChar_eq (w : Nat → Word) : badLabelChar w = [0, 1, 2, 3].find? fun i => !decide
    (32 ≤ (labelChar (joinWords (w 1) (w 2)) i).toNat ∧ (labelChar (joinWords (w 1) (w 2)) i).toNat ≤ 126) := by
  refine congrArg (List.find? · _) (funext fun i => congrArg _ ?_)
  exact Bool.eq_iff_iff.2 (within_iff.trans decide_eq_true_iff.symm)

theorem headerItems_judged (k : Slot) (w : Nat → Word) :
    List.Forall₂ ItemRow.judgedBy (headerRows k w) (headerItems k w) := by
  refine .cons (judged beq_iff_eq) <| .cons ⟨rfl, firstBad_word _ (badLabelChar_eq w)⟩ <| .cons (judged within_iff) <| .cons (judged ?_) <|
    .cons (judged decide_eq_true_iff) <| .cons (judged decide_eq_true_iff) <| .cons (judged decide_eq_true_iff) <|
    .cons (judged decide_eq_true_iff) <| .cons (judged decide_eq_true_iff) <| .cons (judged ?_) <|
    .cons (judged le_one_iff) <| .cons (judged within_iff) <| .cons (judged ?_) <| .cons (judged le_one_iff) <|
    .cons (judged decide_eq_true_iff) <| .cons (judged decide_eq_true_iff) <| .cons (judged decide_eq_true_iff) <|
    .cons (judged decide_eq_true_iff) .nil
  · rw [Bool.or_eq_true, beq_iff_eq]
    refine or_congr Iff.rfl ?_
    unfold recReference
    split_ifs with h
    · simp [has_recTowers, h]
    · simp [h]
  · simp [recBlend]
  · simp

theorem natAbs_le_iff {x : Int} {n : Nat} : x.natAbs ≤ n ↔ -n ≤ x ∧ x ≤ n := by omega

theorem toInt_eq_zero (x : Word) : x.toInt = 0 ↔ x = 0 := by
  rw [← BitVec.toInt_inj]; rfl

theorem toNat_eq_zero (x : Word) : x.toNat = 0 ↔ x = 0 := by
  rw [← BitVec.toNat_inj]; rfl

theorem entryItems_judged (w : Nat → Word) (t : TowerIx) :
    List.Forall₂ ItemRow.judgedBy (entryRows w t (16 + 7 * entryIndex (recTowers w) t)) (entryItems w t) := by
  have href : (recReference w == some t) = decide ((w 4).toNat = t.val) := by
    rw [Bool.eq_iff_iff, beq_iff_eq, recReference_iff, decide_eq_true_iff]
  unfold entryItems
  rw [href]
  refine .cons (judged beq_iff_eq) <| .cons (judged decide_eq_true_iff) <| .cons (judged ?_) <| .cons (judged ?_) <|
    .cons (judged ?_) <| .cons (judged ?_) .nil
  · simp [or_iff_not_imp_left]
  · rw [Bool.and_eq_true, decide_eq_true_iff, natAbs_le_iff, and_assoc]
    simp [or_iff_not_imp_left, toInt_eq_zero, toNat_eq_zero]
  · rw [Bool.and_eq_true, within_iff, decide_eq_true_iff, and_assoc]; rfl
  · rw [Bool.and_eq_true, within_iff, decide_eq_true_iff, and_assoc]; rfl

theorem requirement_of_lt {x : Word} (h : field x 0 8 < 24) :
    requirement x = some (⟨field x 0 8, h⟩, if field x 8 8 = 1 then .closed else .opened) := dif_pos h

theorem requirement_of_ge {x : Word} (h : ¬ field x 0 8 < 24) : requirement x = none := dif_neg h

theorem requirementItems_judged (live : Ctu) (w : Nat → Word) (j : Nat) :
    List.Forall₂ ItemRow.judgedBy (requirementRows live w (countOffset w) j) (requirementItems live w j) := by
  refine .cons (judged ?_) <| .cons (judged ?_) <| .cons (judged ?_) .nil
  · rw [Bool.and_eq_true, decide_eq_true_iff, le_one_iff]
  · simp
  · by_cases h : field (w (countOffset w + 1 + j)) 0 8 < 24
    · rw [requirement_of_lt h]
      dsimp only
      rw [Option.isSome_iff_ne_none]
      exact ⟨fun hc => ⟨⟨_, h⟩, rfl, hc⟩, fun ⟨c, hc, he⟩ => by rwa [show c = ⟨_, h⟩ from Fin.ext hc] at he⟩
    · rw [requirement_of_ge h]
      exact ⟨fun hf => (nomatch hf), fun ⟨c, hc, _⟩ => absurd (lt_of_eq_of_lt hc.symm c.isLt) h⟩

theorem patternItems_judged (k : Slot) (live : Ctu) (w : Nat → Word) :
    List.Forall₂ ItemRow.judgedBy (patternRows k live w) (patternItems k live w) := by
  rw [patternRows_eq]
  exact judged_append (judged_append (judged_append (headerItems_judged k w) (judged_flatMap _ (entryItems_judged w)))
    (.cons (judged decide_eq_true_iff) .nil)) (judged_flatMap _ (requirementItems_judged live w))

/-! ### When a pattern record passes (R17) -/

theorem patternItems_pass (k : Slot) (live : Ctu) (w : Nat → Word) :
    firstFailure (patternItems k live w) = none ↔ (∀ r ∈ headerRows k w, r.passes)
      ∧ (∀ t : TowerIx, (w 3).getLsbD t.val = true →
          ∀ r ∈ entryRows w t (16 + 7 * entryIndex (recTowers w) t), r.passes)
      ∧ (w (countOffset w)).toNat ≤ 24
      ∧ ∀ j < (w (countOffset w)).toNat, ∀ r ∈ requirementRows live w (countOffset w) j, r.passes := by
  rw [firstFailure_none_iff (patternItems_judged k live w), patternRows_eq]
  simp only [List.forall_mem_append, List.forall_mem_flatMap, List.mem_filter, mem_allTowers, true_and, has_recTowers,
    List.forall_mem_singleton, List.mem_range, and_assoc]
  refine and_congr_right' (and_congr_right' (and_congr_right fun hn => ?_))
  rw [Nat.min_eq_left hn]

theorem headerRows_pass (k : Slot) (w : Nat → Word) : (∀ r ∈ headerRows k w, r.passes) ↔
    (w 0).toNat = 41217
    ∧ (∀ i, i < 4 → 32 ≤ (labelChar (joinWords (w 1) (w 2)) i).toNat
          ∧ (labelChar (joinWords (w 1) (w 2)) i).toNat ≤ 126)
    ∧ 1 ≤ (w 3).toNat ∧ (w 3).toNat ≤ 255
    ∧ ((w 4).toNat = 255 ∨ ((w 4).toNat < 8 ∧ (w 3).getLsbD (w 4).toNat = true))
    ∧ (w 5).toNat ≤ 32768 ∧ (w 6).toNat ≤ 4095 ∧ (w 7).toNat ≤ 4095 ∧ (w 8).toNat ≤ 2000 ∧ (w 9).toNat ≤ 10000
    ∧ (field (w 10) 0 2 = 0 ∨ field (w 10) 0 2 = 1 ∧ field (w 10) 4 2 = 1)
    ∧ field (w 10) 4 2 ≤ 1 ∧ field (w 10) 8 2 ≤ 1
    ∧ 1 ≤ field (w 11) 0 8 ∧ field (w 11) 8 8 ≤ 100
    ∧ ((w 12).toNat = 65535 ∨ (w 12).toNat ≤ 15 ∧ (w 12).toNat ≠ k.val)
    ∧ (w 13).toNat ≤ 2048 ∧ (w 14).toNat ≤ 500 ∧ (w 15).toNat ≤ 1000 := by
  have hgrace : field (w 11) 0 8 ≤ 255 := by unfold field; omega
  have hbit : ∀ {n : Nat}, n ≤ 1 ↔ n = 0 ∨ n = 1 := by omega
  simp only [headerRows, List.forall_mem_cons, List.not_mem_nil, false_imp_iff, implies_true, and_true, hbit]
  constructor
  · rintro ⟨h1, h2, ⟨h3, h3'⟩, h4, h5, h6, h7, h8, h9, h10, h11, ⟨h12, -⟩, h13, h14, h15, h16, h17, h18⟩
    exact ⟨h1, h2, h3, h3', h4, h5, h6, h7, h8, h9, h10, h11, h14, h12, h17, h13, h15, h16, h18⟩
  · rintro ⟨h1, h2, h3, h3', h4, h5, h6, h7, h8, h9, h10, h11, h14, h12, h17, h13, h15, h16, h18⟩
    exact ⟨h1, h2, ⟨h3, h3'⟩, h4, h5, h6, h7, h8, h9, h10, h11, ⟨h12, hgrace⟩, h13, h14, h15, h16, h17, h18⟩

theorem entryRows_pass (w : Nat → Word) (t : TowerIx) :
    (∀ r ∈ entryRows w t (16 + 7 * entryIndex (recTowers w) t), r.passes) ↔
      let e := recEntry w t
      let ref := (w 4).toNat = t.val
      (e 0).toNat = t.val ∧ (e 2).toNat ≤ 35999 ∧ 1 ≤ (e 3).toNat ∧ (ref → (e 3).toNat = 16384)
      ∧ -18000 ≤ (e 4).toInt ∧ (e 4).toInt ≤ 18000 ∧ (ref → e 4 = 0)
      ∧ 1 ≤ (e 5).toNat ∧ (e 5).toNat ≤ 100 ∧ field (w 11) 8 8 < (e 5).toNat
      ∧ 10 ≤ (e 6).toNat ∧ (e 6).toNat ≤ 1000 ∧ (w 15).toNat < (e 6).toNat := by
  simp only [entryRows, List.forall_mem_cons, List.not_mem_nil, false_imp_iff, implies_true, and_true, and_assoc, toInt_eq_zero,
    recEntry]

theorem requirementRows_pass (live : Ctu) (w : Nat → Word) (f j : Nat) :
    (∀ r ∈ requirementRows live w f j, r.passes) ↔
      (∃ c : ContactorIx, c.val = field (w (f + 1 + j)) 0 8 ∧ live.units[c].entry ≠ none)
      ∧ field (w (f + 1 + j)) 8 8 ≤ 1
      ∧ ∀ i, i < j → field (w (f + 1 + i)) 0 8 ≠ field (w (f + 1 + j)) 0 8 := by
  have hbit : ∀ {n : Nat}, n ≤ 1 ↔ n = 0 ∨ n = 1 := by omega
  simp only [requirementRows, List.forall_mem_cons, List.not_mem_nil, false_imp_iff, implies_true, and_true, hbit]
  constructor
  · rintro ⟨⟨-, hpos⟩, hnew, hc⟩
    exact ⟨hc, hpos, hnew⟩
  · rintro ⟨⟨c, hc, he⟩, hpos, hnew⟩
    exact ⟨⟨by omega, hpos⟩, hnew, c, hc, he⟩

/-! ### The requirement list (R15) -/

/-- With every number below 24 the list has one requirement for each word. -/
theorem recRequirements_eq {w : Nat → Word} (hn : (w (countOffset w)).toNat ≤ 24)
    (hw : ∀ j < (w (countOffset w)).toNat, field (w (countOffset w + 1 + j)) 0 8 < 24) :
    (recRequirements w).map some
      = (List.range (w (countOffset w)).toNat).map fun j => requirement (w (countOffset w + 1 + j)) := by
  have key : ∀ l : List Nat, (∀ j ∈ l, field (w (countOffset w + 1 + j)) 0 8 < 24) →
      (l.filterMap fun j => requirement (w (countOffset w + 1 + j))).map some
        = l.map fun j => requirement (w (countOffset w + 1 + j)) := by
    intro l
    induction l with
    | nil => exact fun _ => rfl
    | cons j l ih =>
      intro hl
      obtain ⟨hj, hl⟩ := List.forall_mem_cons.1 hl
      rw [List.filterMap_cons, requirement_of_lt hj, List.map_cons, List.map_cons, ih hl, requirement_of_lt hj]
  unfold recRequirements
  rw [Nat.min_eq_left hn]
  exact key _ fun j hj => hw j (List.mem_range.1 hj)

/-- Requirement j is that of word j of the list. -/
theorem requirement_getElem {w : Nat → Word} (hn : (w (countOffset w)).toNat ≤ 24)
    (hw : ∀ j < (w (countOffset w)).toNat, field (w (countOffset w + 1 + j)) 0 8 < 24) {j : Nat} {r : ContactorIx × Position}
    (hr : (recRequirements w)[j]? = some r) : requirement (w (countOffset w + 1 + j)) = some r := by
  have hmap := congrArg (·[j]?) (recRequirements_eq hn hw)
  simp only [List.getElem?_map, hr, Option.map_some] at hmap
  obtain ⟨i, hi, hreq⟩ := Option.map_eq_some_iff.1 hmap.symm
  obtain ⟨_, rfl⟩ := List.getElem?_eq_some_iff.1 hi
  simpa using hreq

theorem requirement_fields {x : Word} {c : ContactorIx} {p : Position} (h : requirement x = some (c, p)) :
    c.val = field x 0 8 ∧ (p = .closed ↔ field x 8 8 = 1) := by
  unfold requirement at h
  split at h
  · simp only [Option.some.injEq, Prod.mk.injEq] at h
    obtain ⟨rfl, rfl⟩ := h
    refine ⟨rfl, ?_⟩
    split <;> simp_all
  · cases h

theorem recMode_blend (w : Nat → Word) : recMode w = .blend ↔ field (w 10) 0 2 = 1 := by
  unfold recMode; split <;> simp_all

theorem recMode_fullMute (w : Nat → Word) : recMode w = .fullMute ↔ field (w 10) 0 2 ≠ 1 := by
  unfold recMode; split <;> simp_all

theorem firstFailure_some_iff (items : List Item) (i : Item) : firstFailure items = some i ↔
    ∃ before after, items = before ++ i :: after ∧ i.pass = false ∧ ∀ x ∈ before, x.pass = true := by
  simp only [firstFailure, List.find?_eq_some_iff_append, Bool.not_eq_true', Bool.not_not]
  constructor
  · rintro ⟨hfail, before, after, hitems, hpass⟩
    exact ⟨before, after, hitems, hfail, hpass⟩
  · rintro ⟨before, after, hitems, hfail, hpass⟩
    exact ⟨hfail, before, after, hitems, hpass⟩

theorem labelChar_toNat (l : Label) {i : Nat} (hi : i < 4) : (labelChar l i).toNat = l.toNat / 256 ^ (3 - i) % 256 := by
  have hpow : 2 ^ (24 - 8 * i) = 256 ^ (3 - i) := by
    rw [show 256 = 2 ^ 8 from rfl, ← pow_mul]
    congr 1; omega
  rw [labelChar, BitVec.extractLsb'_toNat, Nat.shiftRight_eq_div_pow, hpow]

theorem entryIndex_count (w : Nat → Word) (t : TowerIx) : entryIndex (recTowers w) t
    = ((List.finRange 8).filter fun u => u < t ∧ (w 3).getLsbD u.val = true).length := by
  rw [entryIndex, allTowers_eq]
  congr 1
  refine List.filter_congr fun u _ => ?_
  rw [has_recTowers, Bool.and_comm]
  simp

/-- Settles O45: item by item against the rows of Safety.lean, then each field as it is defined. -/
theorem patternItemsJudgeTheRecord : Obligations.PatternItemsJudgeTheRecord := by
  refine ⟨firstFailure_some_iff, patternItems_judged, contactorItems_judged, scheduleItems_judged,
    fun l i hi => labelChar_toNat l hi, fun w => ?_, fun k live w => ?_⟩
  · refine ⟨rfl, has_recTowers w, recReference_iff w, rfl, rfl, rfl, rfl, rfl, recMode_blend w, recMode_fullMute w,
      beq_iff_eq, beq_iff_eq, rfl, rfl, recFallback_iff w, rfl, rfl, rfl, fun t => ?_, ?_⟩
    · rw [← entryIndex_count]
      exact ⟨fun _ => rfl, rfl, rfl, rfl, rfl, rfl, rfl⟩
    · rw [← countOffset_eq]
      intro f hn hw
      refine ⟨?_, fun j c p hr => requirement_fields (requirement_getElem hn hw hr)⟩
      simpa using congrArg List.length (recRequirements_eq hn hw)
  · rw [patternItems_pass, headerRows_pass]
    simp only [entryRows_pass, requirementRows_pass, countOffset_eq, and_assoc]

end Sys2Proof.Machine
end

section
/-! SUPPORT. What operations that write no drive frame do to DSY: a tower is given another order or its clip-noticed flag is
cleared, said once per operation. -/
namespace Sys2Proof.Machine

/-! ## Orders given to towers (R25, R29, R33) -/

/-- The applied values of the tower and the ends of its ramp lie in their ranges (section 2.1). -/
def Tower.InRange (x : Tower) : Prop := x.amp ≤ 65536 ∧ x.phase < 36000 ∧ ∀ r ∈ x.order.ramp?, r.inRange

/-- y is the tower x under another order or with another clip-noticed flag, and lies in its ranges if x does. -/
structure Tower.Reordered (x y : Tower) : Prop where
  eq    : y = { x with order := y.order, clipNoticed := y.clipNoticed }
  range : x.InRange → y.InRange

theorem Tower.Reordered.refl (x : Tower) : x.Reordered x := ⟨rfl, id⟩

theorem Tower.Reordered.trans {x y z : Tower} (h : x.Reordered y) (k : y.Reordered z) : x.Reordered z :=
  ⟨by rw [k.eq, h.eq], fun hx => k.range (h.range hx)⟩

section
variable {x y : Tower} (h : x.Reordered y)
include h

theorem Tower.Reordered.amp : y.amp = x.amp := by rw [h.eq]
theorem Tower.Reordered.phase : y.phase = x.phase := by rw [h.eq]
theorem Tower.Reordered.ready : y.ready = x.ready := by rw [h.eq]
theorem Tower.Reordered.port : y.port = x.port := by rw [h.eq]
end

/-- e is d with its towers under other orders; a tower in REST stays there while the interlock stands open or the ring is
lost (R31, R35). -/
structure Dsy.Reordered (d e : Dsy) : Prop where
  eq    : e = { d with towers := e.towers }
  tower : ∀ k : TowerIx, d.towers[k].Reordered e.towers[k]
  off   : d.ilkClosed = false ∨ d.localPace = true → ∀ k : TowerIx, d.towers[k].order = .rest → e.towers[k].order = .rest

namespace Dsy.Reordered

variable {d e f : Dsy}

theorem refl (d : Dsy) : d.Reordered d := ⟨rfl, fun _ => .refl _, fun _ _ h => h⟩

section
variable (h : d.Reordered e)
include h

theorem ilkClosed : e.ilkClosed = d.ilkClosed := by rw [h.eq]
theorem localPace : e.localPace = d.localPace := by rw [h.eq]
theorem lastNumber : e.lastNumber = d.lastNumber := by rw [h.eq]
theorem heldEnvelope : e.heldEnvelope = d.heldEnvelope := by rw [h.eq]
theorem heldReference : e.heldReference = d.heldReference := by rw [h.eq]
theorem paceLeft : e.paceLeft = d.paceLeft := by rw [h.eq]

theorem trans (k : e.Reordered f) : d.Reordered f :=
  ⟨by rw [k.eq, h.eq], fun i => (h.tower i).trans (k.tower i),
   fun hd i hi => k.off (by rw [h.ilkClosed, h.localPace]; exact hd) i (h.off hd i hi)⟩
end

/-- One tower under another order. -/
theorem modify (t : TowerIx) {g : Tower → Tower} (hg : d.towers[t].Reordered (g d.towers[t]))
    (hoff : d.ilkClosed = false ∨ d.localPace = true → d.towers[t].order = .rest → (g d.towers[t]).order = .rest) :
    d.Reordered { d with towers := modifyAt d.towers t g } := by
  refine ⟨rfl, fun k => ?_, fun hd k hk => ?_⟩
  · show d.towers[k].Reordered (modifyAt d.towers t g)[k]
    rw [modifyAt_get]
    split
    next hkt => rw [hkt]; exact hg
    next => exact .refl _
  · show (modifyAt d.towers t g)[k].order = .rest
    rw [modifyAt_get]
    split
    next hkt => exact hoff hd (hkt ▸ hk)
    next => exact hk

end Dsy.Reordered

/-- A tower put under REST. -/
theorem Tower.reordered_rest (x : Tower) : x.Reordered { x with order := .rest } :=
  ⟨rfl, fun ⟨ha, hp, _⟩ => ⟨ha, hp, fun _ h => nomatch h⟩⟩

/-- A tower under a ramp whose ends lie in range if the tower does. -/
theorem Tower.reordered_ramp {x : Tower} {r : Ramp} (hr : x.InRange → r.inRange) : x.Reordered { x with order := .ramp r } := by
  refine ⟨rfl, fun hx => ⟨hx.1, hx.2.1, fun q hq => ?_⟩⟩
  obtain rfl : r = q := Option.some.inj hq
  exact hr hx

theorem zeroRamp_inRange {x : Tower} (len : Nat) (h : x.InRange) : (zeroRamp x len).inRange := by
  obtain ⟨hamp, hphase, _⟩ := h
  exact ⟨hamp, Nat.zero_le _, hphase, hphase⟩

theorem scaledAmp_le (a : Nat) (t : Int) (p : Nat) : scaledAmp a t p ≤ 65536 := Nat.min_le_left ..

theorem trimmedPhase_lt (phi : Nat) (tau : Int) : trimmedPhase phi tau < 36000 := by
  unfold trimmedPhase
  omega

/-- The values that a pattern gives a tower lie in their ranges when its phase does (R24). -/
theorem patternValues_inRange (p : Pst) (k : Slot) (t : TowerIx) {now : Nat} (h : now < 36000) :
    (patternValues p k t now).1 ≤ 65536 ∧ (patternValues p k t now).2 < 36000 := by
  unfold patternValues
  dsimp only
  split
  · exact ⟨scaledAmp_le .., trimmedPhase_lt ..⟩
  · exact ⟨Nat.zero_le _, h⟩

theorem patternRamp_inRange (p : Pst) (k : Slot) (t : TowerIx) {x : Tower} (len : Nat) (h : x.InRange) :
    (patternRamp p k t x len).inRange := by
  obtain ⟨hamp, hphase, _⟩ := h
  obtain ⟨hend, hendPhase⟩ := patternValues_inRange p k t hphase
  exact ⟨hamp, hend, hphase, hendPhase⟩

theorem orderPattern_reordered (d : Dsy) (p : Pst) (k : Slot) (len : Nat) (t : TowerIx) :
    d.Reordered (d.orderPattern p k len t) := by
  unfold Dsy.orderPattern
  split
  next => exact .refl d
  next hon => exact .modify t (Tower.reordered_ramp (patternRamp_inRange p k t len)) fun hd => absurd hd hon

theorem rampUpAll_reordered (d : Dsy) (p : Pst) (k : Slot) (len : Nat) (s : TowerSet) :
    d.Reordered (d.rampUpAll p k len s) := by
  have fold : ∀ (l : List TowerIx) (e : Dsy),
      e.Reordered (l.foldl (fun d t => if has s t then d.orderPattern p k len t else d) e) := by
    intro l
    induction l with
    | nil => exact .refl
    | cons t l ih =>
      intro e
      refine .trans ?_ (ih _)
      dsimp only
      split
      · exact orderPattern_reordered ..
      · exact .refl e
  exact fold allTowers d

theorem rampDownAll_reordered (d : Dsy) (len : Nat) (skip : TowerSet) : d.Reordered (d.rampDownAll len skip) := by
  obtain ⟨heq, htower⟩ := rampDownAll_spec d len skip
  refine ⟨heq, fun k => ?_, fun _ k hk => ?_⟩
  · rw [htower k]
    split
    · exact .refl _
    · split
      · exact Tower.reordered_rest _
      · exact Tower.reordered_ramp (zeroRamp_inRange len)
  · have hrest : d.towers[k].order.isRest = true := by rw [hk]; rfl
    rw [htower k, if_pos (.inr hrest), hk]

@[simp] theorem forceZero_tower (d : Dsy) (s : TowerSet) (k : TowerIx) :
    (d.forceZero s).towers[k] = if has s k then { d.towers[k] with order := .rest } else d.towers[k] := ofFn_get ..

theorem forceZero_reordered (d : Dsy) (s : TowerSet) : d.Reordered (d.forceZero s) := by
  refine ⟨rfl, fun k => ?_, fun _ k hk => ?_⟩
  · rw [forceZero_tower]
    split
    · exact Tower.reordered_rest _
    · exact .refl _
  · rw [forceZero_tower]
    split
    · rfl
    · exact hk

theorem clearClips_reordered (d : Dsy) : d.Reordered d.clearClips := by
  have htower : ∀ k : TowerIx, d.clearClips.towers[k] = { d.towers[k] with clipNoticed := false } := fun k => map_get ..
  refine ⟨rfl, fun k => ?_, fun _ k hk => ?_⟩
  · rw [htower k]
    exact ⟨rfl, id⟩
  · rw [htower k]
    exact hk

theorem haltOrders_reordered (r : HaltReason) (d : Dsy) : d.Reordered (haltOrders r d) := by
  cases r with
  | ring | interlock => exact .refl d
  | stuck | drift | cabinet | gate => exact rampDownAll_reordered ..

end Sys2Proof.Machine
end

section
/-! SUPPORT. The operations of TXE, CTU, LDU, MON, SCU and CMU write no drive frame: said once per operation, with TXE's frame
number, which only a frame event changes. -/
namespace Sys2Proof.Machine

/-! ## Operations that write no drive frame -/

/-- s stands after operations on o that write no drive frame: TXE's frame number stays, and DSY's towers stand at most under
other orders. -/
structure OrdersOnly (o s : State) : Prop where
  frame : s.txe.frame = o.txe.frame
  dsy   : o.dsy.Reordered s.dsy

namespace OrdersOnly

variable {o s t : State}

theorem refl (s : State) : OrdersOnly s s := ⟨rfl, .refl _⟩

/-- An operation that leaves DSY and TXE's frame number alone. -/
theorem keeps (h : OrdersOnly o s) (hf : t.txe.frame = s.txe.frame) (hd : t.dsy = s.dsy) : OrdersOnly o t :=
  ⟨hf.trans h.frame, hd ▸ h.dsy⟩

theorem ite {p : Prop} [Decidable p] (h : OrdersOnly o s) (k : OrdersOnly o t) : OrdersOnly o (if p then s else t) := by
  split
  · exact h
  · exact k

/-- A list of operations that each write no drive frame. -/
theorem foldl {α : Type} {f : State → α → State} (hf : ∀ s a, OrdersOnly o s → OrdersOnly o (f s a)) (l : List α)
    (h : OrdersOnly o s) : OrdersOnly o (l.foldl f s) := by
  induction l generalizing s with
  | nil => exact h
  | cons a l ih => exact ih (hf s a h)

/-! ### Updates of a block -/

theorem setRif (h : OrdersOnly o s) (b : Rif) : OrdersOnly o (s.setRif b) := h.keeps rfl rfl
theorem setCmu (h : OrdersOnly o s) (b : Cmu) : OrdersOnly o (s.setCmu b) := h.keeps rfl rfl
theorem setPst (h : OrdersOnly o s) (b : Pst) : OrdersOnly o (s.setPst b) := h.keeps rfl rfl
theorem setLdu (h : OrdersOnly o s) (b : Ldu) : OrdersOnly o (s.setLdu b) := h.keeps rfl rfl
theorem setCtu (h : OrdersOnly o s) (b : Ctu) : OrdersOnly o (s.setCtu b) := h.keeps rfl rfl
theorem setMon (h : OrdersOnly o s) (b : Mon) : OrdersOnly o (s.setMon b) := h.keeps rfl rfl
theorem setScu (h : OrdersOnly o s) (b : Scu) : OrdersOnly o (s.setScu b) := h.keeps rfl rfl
theorem setArray (h : OrdersOnly o s) (a : ArrayState) : OrdersOnly o (s.setArray a) := h.keeps rfl rfl
theorem setArmed (h : OrdersOnly o s) (a : Option Armed) : OrdersOnly o (s.setArmed a) := h.keeps rfl rfl
theorem setHistory (h : OrdersOnly o s) (l : List HistRecord) : OrdersOnly o (s.setHistory l) := h.keeps rfl rfl
theorem setClaim (h : OrdersOnly o s) (x : Target) (c : Option Claim) : OrdersOnly o (s.setClaim x c) := h.keeps rfl rfl
theorem setGuard (h : OrdersOnly o s) (g : Option Slot) : OrdersOnly o (setGuard g s) := h.keeps rfl rfl
theorem enter (h : OrdersOnly o s) (r : Record) : OrdersOnly o (s.enter r) := h.keeps rfl rfl

theorem raise (h : OrdersOnly o s) (k : NoticeKind) (b : Option (BitVec 8)) (d : List Word) : OrdersOnly o (s.raise k b d) :=
  h.enter _

theorem closeRecord (h : OrdersOnly o s) (x : HistOutcome) (f : FrameNum) : OrdersOnly o (closeRecord x f s) := h.setHistory _

theorem setDsy (h : OrdersOnly o s) {d : Dsy} (hd : s.dsy.Reordered d) : OrdersOnly o (s.setDsy d) :=
  ⟨h.frame, h.dsy.trans hd⟩

/-! ### Requests and reports -/

theorem withdraw (h : OrdersOnly o s) (r : WithdrawReason) : OrdersOnly o (withdraw r s) :=
  h.keeps (by rw [withdraw_txe]) (by rw [withdraw_eq]; rfl)

theorem request (h : OrdersOnly o s) (k : Slot) (m : ReqMode) (f : Option FrameNum) (c : Cause) :
    OrdersOnly o (request k m f c s).1 := by
  unfold Machine.request
  split
  · split
    · exact h
    · split
      · exact h.setArmed _
      · exact h
  all_goals exact h

theorem raiseDue (h : OrdersOnly o s) (x : Occurrence) (a : DueOutcome) (r : DueReason) (f : Option FrameNum) :
    OrdersOnly o (raiseDue x a r f s) := h.raise ..

theorem defer (h : OrdersOnly o s) (x : Occurrence) : OrdersOnly o (defer x s) := by
  unfold Machine.defer
  split
  · split
    · exact h.setScu _
    · exact (h.raiseDue ..).setScu _
  · exact h.setScu _

theorem settleDue (h : OrdersOnly o s) (x : Occurrence) (a : ReqAnswer) : OrdersOnly o (settleDue x a s) := by
  have h1 : OrdersOnly o (if (dueOf a).1 = .deferred then Machine.defer x s else s) := ite (h.defer x) h
  exact (ite (h1.setScu _) h1).raiseDue ..

theorem actOn (h : OrdersOnly o s) (x : Occurrence) (f : Option FrameNum) : OrdersOnly o (actOn x f s) := by
  unfold Machine.actOn
  split
  · exact h
  · exact (h.request ..).settleDue ..

theorem tellActive (h : OrdersOnly o s) (p : Slot) : OrdersOnly o (tellActive p s) := by
  unfold Machine.tellActive offerDeferred
  split
  · exact h.setMon _
  · exact ((h.setMon _).setScu _).actOn ..

theorem tellStopped (h : OrdersOnly o s) : OrdersOnly o (tellStopped s) := by
  rw [tellStopped_eq]
  exact ((h.setMon _).setScu _).setCmu _

/-! ### Transitions -/

theorem noteAtRest (h : OrdersOnly o s) (c : HaltContext) : OrdersOnly o (noteAtRest c s) := (h.setArray _).raise ..

theorem restAtEntry (h : OrdersOnly o s) (c : HaltContext) : OrdersOnly o (restAtEntry c s) := ite (h.noteAtRest c) h

theorem halt (h : OrdersOnly o s) (r : HaltReason) (u : HaltSubject) : OrdersOnly o (halt r u s) := by
  unfold Machine.halt
  split
  · exact h
  · have h1 := ((h.withdraw .halt).setGuard none).setDsy (haltOrders_reordered r _)
    exact ((((h1.setHistory _).setArray _).raise ..).restAtEntry _).tellStopped

theorem takeDrift (h : OrdersOnly o s) (c : ContactorIx) : OrdersOnly o (takeDrift c s) := by
  unfold Machine.takeDrift
  split
  · exact (h.setDsy (forceZero_reordered ..)).halt ..
  · exact h

theorem startRampUp (h : OrdersOnly o s) (c : TxContext) : OrdersOnly o (startRampUp c s) := by
  unfold Machine.startRampUp
  split
  · exact (h.setArray _).halt ..
  · exact (h.setArray _).setDsy (rampUpAll_reordered ..)

theorem enterReadyUp (h : OrdersOnly o s) (c : TxContext) (g : Nat) : OrdersOnly o (enterReadyUp c g s) := (h.setArray _).raise ..

theorem afterSettle (h : OrdersOnly o s) (c : TxContext) : OrdersOnly o (afterSettle c s) := by
  unfold Machine.afterSettle
  split
  · exact h.enterReadyUp ..
  · exact h.startRampUp c

theorem enterSettle (h : OrdersOnly o s) (c : TxContext) : OrdersOnly o (enterSettle c s) :=
  ite ((h.setArray _).afterSettle c) (h.setArray _)

theorem leaveSwitching (h : OrdersOnly o s) (c : TxContext) : OrdersOnly o (leaveSwitching c s) :=
  foldl (fun _ k hs => hs.takeDrift k) _ (ite ((h.setGuard _).enterSettle c) ((h.setGuard _).afterSettle c))

theorem judgeSwitching (h : OrdersOnly o s) : OrdersOnly o (judgeSwitching s) := by
  unfold Machine.judgeSwitching
  split
  · exact ite (h.leaveSwitching _) h
  all_goals exact h

theorem enterSwitching (h : OrdersOnly o s) (c : TxContext) : OrdersOnly o (enterSwitching c s) := by
  obtain ⟨htxe, hdsy, _⟩ := giveMoves_spec s (recRequirements (s.recordOf c.target)) { c with awaited := 0, moved := false }
  have h1 := (h.keeps (congrArg Txe.frame htxe) hdsy).setArray (.switching (giveMoves (recRequirements (s.recordOf c.target))
    { c with awaited := 0, moved := false } s).1)
  unfold Machine.enterSwitching
  dsimp only
  split
  · exact h1.halt ..
  · exact h1.judgeSwitching

theorem enterRampDown (h : OrdersOnly o s) (c : TxContext) : OrdersOnly o (enterRampDown c s) := by
  have h1 := (h.setArray (.rampDown c)).setDsy (rampDownAll_reordered s.dsy c.downLen c.blend)
  exact ite (h1.enterSwitching c) h1

theorem launch (h : OrdersOnly o s) (c : TxContext) (f : FrameNum) : OrdersOnly o (launch c f s) := by
  have h1 : OrdersOnly o (openRecord c.cause c.source c.target c.mode c.joint.isSome f s) := h.keeps rfl rfl
  exact (((h1.setGuard none).enterRampDown c).raise ..).setMon _

theorem startArmed (h : OrdersOnly o s) (a : Armed) (f : FrameNum) : OrdersOnly o (startArmed a f s) := by
  refine OrdersOnly.launch ?_ _ f
  unfold abandonHalted
  split
  · exact (h.setArmed none).closeRecord ..
  all_goals exact h.setArmed none

theorem complete (h : OrdersOnly o s) (c : TxContext) : OrdersOnly o (complete c s) := by
  have h1 := ((h.setArray (.active c.target)).closeRecord .completed s.txe.now).setDsy (clearClips_reordered _)
  refine OrdersOnly.tellActive ?_ _
  unfold raiseCompleted
  split
  · exact h1
  · exact h1.enter _

theorem takeRampEnds (h : OrdersOnly o s) (l : List (TowerIx × RampEnd)) : OrdersOnly o (takeRampEnds l s) := by
  unfold Machine.takeRampEnds
  split
  · exact ite (h.complete _) (h.setArray _)
  all_goals exact h

theorem enterMuted (h : OrdersOnly o s) (x : MutedCause) (r : Option Slot) : OrdersOnly o (enterMuted x r s) :=
  ((h.setArray _).raise ..).tellStopped

theorem takeAtRest (h : OrdersOnly o s) : OrdersOnly o (takeAtRest s) := by
  unfold Machine.takeAtRest
  split
  · exact ite (h.enterSwitching _) h
  · exact ite (h.enterMuted ..) h
  · exact ite (h.noteAtRest _) h
  all_goals exact h

theorem examineArmed (h : OrdersOnly o s) (a : Armed) (n : FrameNum) (b : Bool) : OrdersOnly o (examineArmed a n b s) :=
  ite (h.withdraw _) (ite (h.startArmed ..) (ite h (h.withdraw _)))

theorem examineGo (h : OrdersOnly o s) (c : TxContext) (f n : FrameNum) (b : Bool) : OrdersOnly o (examineGo c f n b s) :=
  ite (h.startRampUp c) (ite h (h.enterReadyUp ..))

/-! ### Reports, losses and mutes -/

theorem unawait (h : OrdersOnly o s) (k : ContactorIx) : OrdersOnly o (unawait k s) := by
  unfold Machine.unawait
  split
  · exact h.setArray _
  all_goals exact h

theorem takeReport (h : OrdersOnly o s) (k : ContactorIx) (r : CtuReport) : OrdersOnly o (takeReport k r s) := by
  cases r with
  | nothing => exact h
  | confirmed | agree => exact (h.unawait k).judgeSwitching
  | disagree drift => exact ite (h.takeDrift k) h.judgeSwitching

theorem takeStuck (h : OrdersOnly o s) (k : ContactorIx) : OrdersOnly o (takeStuck k s) := by
  unfold Machine.takeStuck
  split
  · exact h.halt ..
  all_goals exact h

theorem takeCabinetLoss (h : OrdersOnly o s) (t : TowerIx) : OrdersOnly o (takeCabinetLoss t s) := by
  unfold Machine.takeCabinetLoss
  split
  · exact ite (h.halt ..) h
  all_goals exact h

theorem takeLost (h : OrdersOnly o s) : OrdersOnly o (takeLost s) := by
  unfold Machine.takeLost
  cases s.txe.array <;> dsimp only
  case active => exact ((h.withdraw _).setGuard none).enterMuted ..
  case muting => exact h.enterMuted ..
  case unset | muted | halted => exact h
  all_goals exact h.halt ..

theorem takeRegain (h : OrdersOnly o s) : OrdersOnly o (takeRegain s) := by
  unfold Machine.takeRegain
  split
  · exact (h.setArray _).launch ..
  all_goals exact h

theorem enterGood (h : OrdersOnly o s) : OrdersOnly o (enterGood s) :=
  (ite ((h.setRif _).takeRegain.raise ..) h).setRif _

theorem takeInterlock (h : OrdersOnly o s) : OrdersOnly o (takeInterlock s) := by
  have h1 := h.withdraw .interlock
  unfold Machine.takeInterlock
  dsimp only
  cases (Machine.withdraw .interlock s).txe.array <;> dsimp only
  case active => exact (h1.setGuard none).enterMuted ..
  case muting => exact h1.enterMuted ..
  case muted => exact h1.setArray _
  case unset | halted => exact h1
  all_goals exact h1.halt ..

theorem muteTowers (h : OrdersOnly o s) (len : Nat) : OrdersOnly o (muteTowers len s) := by
  have h1 := h.setDsy (rampDownAll_reordered s.dsy len 0)
  unfold Machine.muteTowers
  dsimp only
  split
  · exact h1.enterMuted ..
  · exact (h1.setArray _).setMon _

theorem muteArray (h : OrdersOnly o s) (len : Nat) : OrdersOnly o (muteArray len s) := by
  have h1 := h.closeRecord .muted s.txe.now
  unfold Machine.muteArray
  cases s.txe.array <;> dsimp only
  case unset | muting => exact h
  case muted => exact h.setArray _
  case active => exact (h.setGuard none).muteTowers len
  case halted => exact h1.muteTowers len
  all_goals exact (h1.setGuard none).muteTowers len

/-! ### Schedule and monitor -/

theorem takeOccurrence (h : OrdersOnly o s) (x : Occurrence) : OrdersOnly o (takeOccurrence x s) := by
  unfold Machine.takeOccurrence
  split
  · unfold holdDue
    split
    · exact ((h.raiseDue ..).setScu _).raiseDue ..
    · exact (h.setScu _).raiseDue ..
  · exact h.actOn ..

theorem fallDue (h : OrdersOnly o s) (os : List Occurrence) : OrdersOnly o (fallDue os s) := by
  induction os generalizing s with
  | nil => exact h
  | cons x xs ih =>
    cases xs with
    | nil => exact h.takeOccurrence x
    | cons y ys => exact ih (h.raiseDue ..)

theorem crossClock (h : OrdersOnly o s) (d0 : Date) (t0 n : Nat) (d1 : Date) (t1 : Nat) :
    OrdersOnly o (crossClock d0 t0 n d1 t1 s) := by
  have h1 := h.setScu (s.scu.setClock d1 t1)
  have h2 := ite (p := n = 2) (h1.raise .clockSet none (twoWords (timestamp d1 t1) ++ [word n])) h1
  exact ite h2 (ite (h2.fallDue _) (h1.raise ..))

theorem takeTime (h : OrdersOnly o s) (b : TimeBody) : OrdersOnly o (takeTime b s) := by
  unfold Machine.takeTime
  split
  · split
    · exact (h.setScu _).raise ..
    · exact h.crossClock ..
    · exact h.crossClock ..
  · exact h.raise ..

theorem holdOn (h : OrdersOnly o s) : OrdersOnly o (holdOn s) := by
  unfold Machine.holdOn
  split
  · exact h
  · split
    · exact h.setScu _
    · exact (h.setScu _).raiseDue ..

theorem holdOff (h : OrdersOnly o s) (b : Bool) : OrdersOnly o (holdOff b s) := by
  unfold Machine.holdOff
  split
  · split
    · exact h.setScu _
    · exact ite ((h.setScu _).actOn ..) ((h.setScu _).raiseDue ..)
  · exact h

theorem staleExpiry (h : OrdersOnly o s) : OrdersOnly o (staleExpiry s) := by
  unfold Machine.staleExpiry
  split
  · exact (h.setScu _).raise ..
  all_goals exact h

theorem replaceSchedule (h : OrdersOnly o s) (w : Nat → Word) : OrdersOnly o (replaceSchedule w s) := by
  have discard : ∀ (x : Option Occurrence) {u : State}, OrdersOnly o u → OrdersOnly o (discardForTable x u) := by
    intro x u hu
    unfold discardForTable
    split
    · exact hu.raiseDue ..
    · exact hu
  exact (discard _ (discard _ h)).setScu _

theorem takeFaultAction (h : OrdersOnly o s) (w : Nat → Word) : OrdersOnly o (takeFaultAction w s).1 := by
  unfold Machine.takeFaultAction
  split
  · exact h
  · split
    · exact h
    · exact (h.request ..).setMon _

theorem setStatus (h : OrdersOnly o s) (t : TowerIx) (x : Tolerance) (n : Nat) : OrdersOnly o (setStatus t x n s) := h.setMon _

theorem judgeTower (h : OrdersOnly o s) (w : Nat → Word) (t : TowerIx) (r : Nat) (m : Int) (q : BitVec 8) :
    OrdersOnly o (judgeTower w t r m q s) := by
  unfold Machine.judgeTower
  dsimp only
  refine ite (ite ?_ ?_) (ite h (ite ?_ ?_))
  · exact (h.setStatus ..).raise ..
  · exact h.setStatus ..
  · exact ((h.setStatus ..).takeFaultAction w).raise ..
  · exact h.setStatus ..

theorem noticeLimit (h : OrdersOnly o s) (w : Nat → Word) (k : Slot) (t : TowerIx) (a b : Int) :
    OrdersOnly o (noticeLimit w k t a b s) := by
  unfold Machine.noticeLimit
  split
  · exact h
  · exact ite h ((h.setMon _).raise ..)

theorem trimTower (h : OrdersOnly o s) (w : Nat → Word) (k : Slot) (t : TowerIx) (r : Nat) (m : Int) :
    OrdersOnly o (trimTower w k t r m s) := ite h ((h.noticeLimit ..).setPst _)

theorem evaluateTower (h : OrdersOnly o s) (w : Nat → Word) (k : Slot) (rec : MonRecord) (t : TowerIx) :
    OrdersOnly o (evaluateTower w k rec s t) := ite ((h.judgeTower ..).trimTower ..) h

theorem evaluate (h : OrdersOnly o s) (rec : MonRecord) : OrdersOnly o (evaluate rec s) := by
  unfold Machine.evaluate
  split
  · exact h
  · exact ite (foldl (fun _ t hs => hs.evaluateTower _ _ rec t) _ h) h

theorem takeRecord (h : OrdersOnly o s) (rx : Rx) : OrdersOnly o (takeRecord rx s) := by
  have taken : ∀ rec : MonRecord, OrdersOnly o (recordTaken rec s) := fun rec => ite (h.setMon _) ((h.setMon _).raise ..)
  unfold Machine.takeRecord
  split
  · exact h
  · exact ite (taken _) ((taken _).evaluate _)

theorem absenceExpiry (h : OrdersOnly o s) : OrdersOnly o (absenceExpiry s) := ite ((h.setMon _).raise ..) h

/-! ### Contactors -/

theorem moveRequest (h : OrdersOnly o s) (c : ContactorIx) (p : Position) : OrdersOnly o (moveRequest c p s).1 :=
  h.keeps (by rw [moveRequest_txe]) (moveRequest_dsy ..)

theorem takeReading (h : OrdersOnly o s) (c : ContactorIx) (e : Contactor) : OrdersOnly o (takeReading c e s).1 := by
  refine h.keeps (by rw [UsesValid.takeReading_txe]) ?_
  unfold Machine.takeReading enterDisagree
  cases e.state <;> dsimp only <;> split_ifs <;> rfl

theorem replaceContactors (h : OrdersOnly o s) (w : Nat → Word) : OrdersOnly o (replaceContactors w s) := by
  refine foldl (fun u c hu => ?_) _ (h.setCtu _)
  split
  · exact ite (hu.raise ..) hu
  · exact hu

theorem auxDebounced (h : OrdersOnly o s) (c : ContactorIx) (i : AuxInput) : OrdersOnly o (auxDebounced c i s) := by
  have h1 : OrdersOnly o (s.onUnit c fun u => u.debounced i) := h.setCtu _
  refine ite (ite h1 ?_) h
  unfold readingChanged
  split
  · exact h1
  · exact (h1.takeReading ..).takeReport ..

theorem travelExpired (h : OrdersOnly o s) (c : ContactorIx) : OrdersOnly o (travelExpired c s) := by
  unfold Machine.travelExpired
  split
  · exact h
  · exact ite (((h.setCtu _).raise ..).takeStuck c) h

theorem settleExpired (h : OrdersOnly o s) : OrdersOnly o (settleExpired s) := by
  unfold Machine.settleExpired
  split
  · exact h.afterSettle _
  all_goals exact h

theorem gateExpired (h : OrdersOnly o s) : OrdersOnly o (gateExpired s) := by
  unfold Machine.gateExpired
  split
  · exact h.halt ..
  all_goals exact h

/-! ### Loading -/

theorem onSlot (h : OrdersOnly o s) (x : Target) (f : Pst → Slot → Pst) : OrdersOnly o (onSlot x f s) := by
  unfold Machine.onSlot
  split
  · exact h.setPst _
  · exact h

theorem claimBody (h : OrdersOnly o s) (m : Mgmt) : OrdersOnly o (claimBody m s).1 := by
  unfold Machine.claimBody
  split
  · exact h
  · refine setClaim ?_ _ _
    unfold claimRegion
    split
    · exact (h.setLdu _).setPst _
    · exact (h.setLdu _).setLdu _

theorem writeSegment (h : OrdersOnly o s) {x : Target} {a : Nat} {ws : List Word} (hw : writeSegment x a ws s = .ok t) :
    OrdersOnly o t := by
  unfold Machine.writeSegment at hw
  split at hw
  · split at hw
    · cases hw; exact h.setPst _
    · cases hw
  · cases hw; exact h.setLdu _

theorem appendWords (x : Target) (n : Nat) (ws : List Word) {r : LoadRun} (h : OrdersOnly o r.state) :
    OrdersOnly o (appendWords x n ws r).state := by
  induction ws generalizing r with
  | nil => exact h
  | cons w ws ih =>
    unfold Machine.appendWords
    split
    · split
      · rename_i hw
        exact ih (r := ⟨_, _, _, _, _, _⟩) (h.writeSegment hw)
      · exact h
    · exact ih (r := { r with held := r.held ++ [w] }) h

theorem loadBody (h : OrdersOnly o s) (m : Mgmt) : OrdersOnly o (loadBody m s).1 := by
  unfold Machine.loadBody
  split
  · exact h
  · split
    · exact h
    · exact ((appendWords _ _ _ h).setLdu _).setClaim ..

theorem flush_ok (h : OrdersOnly o s) {x : Target} {c d : Claim} {b : Bool} (hf : flush x c s = .ok (t, d, b)) :
    OrdersOnly o t := by
  unfold flush at hf
  split at hf
  · cases hf; exact h
  · split at hf
    · rename_i hw
      cases hf
      exact (h.writeSegment hw).setLdu _
    · cases hf

theorem flush_error (h : OrdersOnly o s) {x : Target} {c : Claim} {r : State × Answer} (hf : flush x c s = .error r) :
    OrdersOnly o r.1 := by
  unfold flush at hf
  split at hf
  · cases hf
  · split at hf
    · cases hf
    · cases hf
      exact (h.setLdu _).setClaim ..

theorem commitBody (h : OrdersOnly o s) (m : Mgmt) : OrdersOnly o (commitBody m s).1 := by
  unfold Machine.commitBody
  split
  · exact h
  · split
    · exact h
    · unfold takeCommit
      split
      · exact h.flush_error ‹_›
      · exact (h.flush_ok ‹_›).setClaim ..

theorem finishBody (h : OrdersOnly o s) (m : Mgmt) : OrdersOnly o (finishBody m s).1 := by
  unfold Machine.finishBody
  split
  · exact h
  · split
    · exact h
    · unfold takeFinish
      split
      · exact h.flush_error ‹_›
      · exact ((h.flush_ok ‹_›).onSlot ..).setClaim ..

theorem abandon (h : OrdersOnly o s) (x : Target) : OrdersOnly o (abandon x s) := ((h.setLdu _).onSlot ..).setClaim ..

theorem unclaimBody (h : OrdersOnly o s) (m : Mgmt) : OrdersOnly o (unclaimBody m s).1 := by
  unfold Machine.unclaimBody
  split
  · exact h
  · exact h.abandon _

theorem lapse (h : OrdersOnly o s) (x : Target) : OrdersOnly o (lapse x s) := by
  unfold Machine.lapse
  split
  · exact h
  · exact ite h ((h.abandon x).raise ..)

theorem makeLive (h : OrdersOnly o s) (x : Target) (v : Word) : OrdersOnly o (makeLive x v s) :=
  ite (h.onSlot ..) ((ite (h.replaceContactors _) (h.replaceSchedule _)).setLdu _)

theorem completeCheck (h : OrdersOnly o s) (x : Target) : OrdersOnly o (completeCheck x s) := by
  unfold Machine.completeCheck
  split
  · exact h
  · split
    · exact h
    · exact (ite ((h.makeLive ..).setClaim ..) ((h.onSlot ..).setClaim ..)).raise ..

/-! ### Commands -/

theorem switchBody (h : OrdersOnly o s) (m : Mgmt) : OrdersOnly o (switchBody m s).1 := by
  unfold Machine.switchBody
  dsimp only
  split
  · exact h
  · split
    · exact h
    · rename_i f _
      split
      · exact h
      · have h1 := (h.withdraw .replaced).setArmed (some (armedOf (switchParams m) f))
        unfold arm
        dsimp only
        split
        · exact h1.setArray _
        all_goals exact h1

theorem withdrawBody (h : OrdersOnly o s) (m : Mgmt) : OrdersOnly o (withdrawBody m s).1 := by
  unfold Machine.withdrawBody
  split
  · exact h
  · exact h.setArmed none

theorem goBody (h : OrdersOnly o s) (m : Mgmt) : OrdersOnly o (goBody m s).1 := by
  unfold Machine.goBody
  split
  · split
    · exact h
    · exact h.setArray _
  all_goals exact h

theorem continueBody (h : OrdersOnly o s) (m : Mgmt) : OrdersOnly o (continueBody m s).1 := by
  unfold Machine.continueBody
  split
  · exact h
  · split_ifs
    · exact h
    · exact h
    · exact ((h.withdraw .replaced).enterSwitching _).raise ..

theorem retreatBody (h : OrdersOnly o s) (m : Mgmt) : OrdersOnly o (retreatBody m s).1 := by
  unfold Machine.retreatBody
  split
  · exact h
  · split
    · exact h
    · split
      · exact h
      · split
        · exact h
        · exact ((h.withdraw .replaced).closeRecord ..).launch ..

theorem moveBody (h : OrdersOnly o s) (m : Mgmt) : OrdersOnly o (moveBody m s).1 := by
  unfold Machine.moveBody
  split
  · exact h.moveRequest ..
  · exact h

theorem trimClearBody (h : OrdersOnly o s) (m : Mgmt) : OrdersOnly o (trimClearBody m s).1 :=
  ite ((h.setPst _).setMon _) (h.setPst _)

theorem scheduleHoldBody (h : OrdersOnly o s) (m : Mgmt) : OrdersOnly o (scheduleHoldBody m s).1 := by
  unfold Machine.scheduleHoldBody
  split
  · exact h.holdOn
  · exact h.holdOff _

/-! ### Message frames -/

theorem receiveMgmt (h : OrdersOnly o s) (rx : Rx) : OrdersOnly o (receiveMgmt rx s) := by
  have h1 : OrdersOnly o (passMessage rx s) := h.setRif _
  unfold Machine.receiveMgmt
  split
  · exact ite (ite (h1.setCmu _) (h1.enter _)) h1
  · exact h1

theorem receiveTime (h : OrdersOnly o s) (rx : Rx) : OrdersOnly o (receiveTime rx s) := by
  have h1 : OrdersOnly o (passMessage rx s) := h.setRif _
  unfold Machine.receiveTime
  split
  · exact ite (h1.takeTime _) h1
  · exact h1

theorem receiveRelease (h : OrdersOnly o s) (rx : Rx) : OrdersOnly o (receiveRelease rx s) := by
  have h1 : OrdersOnly o (passMessage rx s) := h.setRif _
  exact ite (ite (ite ((h1.setRif _).setCmu _) h1) ((h1.setRif _).raise ..)) h1

theorem receiveEmpty (h : OrdersOnly o s) (rx : Rx) : OrdersOnly o (receiveEmpty rx s) := by
  have h1 : OrdersOnly o (passMessage rx s) := h.setRif _
  exact ite (h1.setRif _) h1

end OrdersOnly
end Sys2Proof.Machine
end

section
/-! SUPPORT. What one set of drive frames leaves of DSY and of the Report Queue, and that every command keeps the laws of the
drive. -/
namespace Sys2Proof.Machine

/-! ## One set of drive frames (R22, R26, R28, R29) -/

/-- The notices CLIPPING of the towers that clip, in ascending order (R29). -/
def clipNotices (before : Dsy) (f : FrameSource) (s : State) : List Record :=
  allTowers.filterMap fun t => (before.towers[t].clipNotice s.pst t f).map fun details =>
    .notice .clipping s.stamp (subjectOf t.val) none details

theorem raiseClips_eq (before : Dsy) (f : FrameSource) (s : State) :
    raiseClips before f s = s.setCmu (s.cmu.enterAll (clipNotices before f s)) := by
  unfold raiseClips clipNotices
  generalize allTowers = l
  induction l generalizing s with
  | nil => rfl
  | cons t l ih =>
    rw [List.foldl_cons, ih, List.filterMap_cons]
    cases before.towers[t].clipNotice s.pst t f <;> rfl

/-- Drive frames change DSY, and the Report Queue by the notices of the towers that clip. -/
theorem writeFrames_eq (f : FrameSource) (s : State) : writeFrames f s
    = (s.setDsy (s.dsy.write s.pst f)).setCmu (s.cmu.enterAll (clipNotices s.dsy f (s.setDsy (s.dsy.write s.pst f)))) :=
  raiseClips_eq ..

theorem writeFrames_dsy (f : FrameSource) (s : State) : (writeFrames f s).dsy = s.dsy.write s.pst f := by
  rw [writeFrames_eq]; rfl

theorem writeFrames_txe (f : FrameSource) (s : State) : (writeFrames f s).txe = s.txe := by
  rw [writeFrames_eq]; rfl

theorem write_tower (d : Dsy) (p : Pst) (f : FrameSource) (k : TowerIx) :
    (d.write p f).towers[k] = d.towers[k].drive p k f := ofFn_get ..

/-- A frame event sets TXE's frame number before anything else. -/
theorem frameEvent_ordersOnly (n : FrameNum) (b : Bool) (s : State) :
    OrdersOnly (s.setTxe { s.txe with frame := some n }) (frameEvent n b s) := by
  unfold frameEvent
  dsimp only
  split
  · exact (OrdersOnly.refl _).examineArmed ..
  · split
    · exact (OrdersOnly.refl _).examineGo ..
    all_goals exact .refl _

/-- The reports that the drive frames give change no drive frame (R27, R64). -/
theorem ringFrame_ordersOnly (f : FrameSource) (b : Bool) (s : State) :
    OrdersOnly (writeFrames f (frameEvent f.number b s)) (ringFrame f b s) :=
  (OrdersOnly.refl _).takeAtRest.takeRampEnds _

/-! ## The laws of the drive (R31, R35, section 2.1) -/

/-- y keeps REST and the ranges of x. -/
structure Tower.DriveKept (x y : Tower) : Prop where
  rest  : x.order = .rest → y.order = .rest
  range : x.InRange → y.InRange

theorem Tower.DriveKept.refl (x : Tower) : x.DriveKept x := ⟨id, id⟩

/-- A step of a ramp stays between its ends, rounded. -/
theorem Ramp.ampAt_le {r : Ramp} {k : Nat} (hk : k ≤ r.length) (hr : r.inRange) : r.ampAt k ≤ 65536 := by
  obtain ⟨hstart, hend, _⟩ := hr
  rcases Nat.eq_zero_or_pos r.length with hzero | hpos
  · simp [Ramp.ampAt, roundDiv, hzero]
  · have hsum : r.startAmp * (r.length - k) + r.endAmp * k ≤ 65536 * r.length :=
      calc r.startAmp * (r.length - k) + r.endAmp * k
          ≤ 65536 * (r.length - k) + 65536 * k := Nat.add_le_add (Nat.mul_le_mul_right _ hstart) (Nat.mul_le_mul_right _ hend)
        _ = 65536 * r.length := by rw [← Nat.mul_add, Nat.sub_add_cancel hk]
    refine Nat.lt_succ_iff.1 ((Nat.div_lt_iff_lt_mul (by omega)).2 ?_)
    omega

theorem Ramp.phaseAt_lt {r : Ramp} {now : Nat} (k : Nat) (hr : r.inRange) (hnow : now < 36000) :
    r.phaseAt k now < 36000 := by
  obtain ⟨_, _, _, hend⟩ := hr
  unfold Ramp.phaseAt
  cases r.manner with
  | hold => exact hnow
  | jump => exact hend
  | arc => dsimp only; omega

theorem Ramp.lastPhase_lt {r : Ramp} {now : Nat} (hr : r.inRange) (hnow : now < 36000) : r.lastPhase now < 36000 := by
  obtain ⟨_, _, _, hend⟩ := hr
  unfold Ramp.lastPhase
  cases r.manner with
  | hold => exact hnow
  | jump | arc => exact hend

/-- Advancing a tower by one frame keeps REST and the ranges (R22, R24, R26). -/
theorem Tower.advance_driveKept (p : Pst) (t : TowerIx) (x : Tower) : x.DriveKept (x.advance p t).1 := by
  unfold Tower.advance
  split
  next => exact ⟨id, fun ⟨_, hphase, hramp⟩ => ⟨Nat.zero_le _, hphase, hramp⟩⟩
  next k ho =>
    refine ⟨fun h => (nomatch ho.symm.trans h), fun ⟨_, hphase, hramp⟩ => ?_⟩
    obtain ⟨hamp, hphase⟩ := patternValues_inRange p k t hphase
    exact ⟨hamp, hphase, hramp⟩
  next r ho =>
    refine ⟨fun h => (nomatch ho.symm.trans h), fun ⟨_, hphase, hramp⟩ => ?_⟩
    have hr : r.inRange := hramp r (by rw [ho]; rfl)
    split
    next =>
      have hend : r.target.order.ramp? = none := by cases r.target <;> rfl
      exact ⟨hr.2.1, r.lastPhase_lt hr hphase, fun q hq => by rw [hend] at hq; cases hq⟩
    next hlen =>
      refine ⟨Ramp.ampAt_le (by omega) hr, Ramp.phaseAt_lt _ hr hphase, fun q hq => ?_⟩
      obtain rfl : { r with step := r.step + 1 } = q := Option.some.inj hq
      exact hr

/-- The port and the clip-noticed flag have no part in the laws. -/
theorem Tower.drive_driveKept (p : Pst) (t : TowerIx) (f : FrameSource) (x : Tower) : x.DriveKept (x.drive p t f) := by
  obtain ⟨hrest, hrange⟩ := Tower.advance_driveKept p t x
  exact ⟨hrest, hrange⟩

/-- The laws of the drive hold in t if they do in s. -/
structure DriveKept (s t : State) : Prop where
  off   : DriveOffLaw s → DriveOffLaw t
  range : TowerLaw s → TowerLaw t

namespace DriveKept

variable {s t u : State}

theorem refl (s : State) : DriveKept s s := ⟨id, id⟩

theorem trans (h : DriveKept s t) (k : DriveKept t u) : DriveKept s u := ⟨k.off ∘ h.off, k.range ∘ h.range⟩

theorem ite {p : Prop} [Decidable p] (h : DriveKept s t) (k : DriveKept s u) : DriveKept s (if p then t else u) := by
  split
  · exact h
  · exact k

/-- Drive is off in t only where it is in s, and tower by tower REST and the ranges are kept. -/
theorem ofTowers
    (hoff : t.dsy.ilkClosed = false ∨ t.dsy.localPace = true → s.dsy.ilkClosed = false ∨ s.dsy.localPace = true)
    (h : ∀ k : TowerIx, s.dsy.towers[k].DriveKept t.dsy.towers[k]) : DriveKept s t :=
  ⟨fun law hd k => (h k).rest (law (hoff hd) k), fun law k => (h k).range (law k)⟩

theorem ofDsy (h : t.dsy = s.dsy) : DriveKept s t := ofTowers (by rw [h]; exact id) fun k => by rw [h]; exact .refl _

/-- Every tower stands under REST in t. -/
theorem ofRest (hrest : ∀ k : TowerIx, t.dsy.towers[k].order = .rest)
    (hrange : ∀ k : TowerIx, s.dsy.towers[k].InRange → t.dsy.towers[k].InRange) : DriveKept s t :=
  ⟨fun _ _ => hrest, fun law k => hrange k (law k)⟩

/-- Every tower forced to REST (R31, R35, R38). -/
theorem ofForced (h : t.dsy.towers = (s.dsy.forceZero (BitVec.allOnes 8)).towers) : DriveKept s t := by
  have hall : ∀ k : TowerIx, has (BitVec.allOnes 8) k = true := by decide
  have htower : ∀ k : TowerIx, t.dsy.towers[k] = { s.dsy.towers[k] with order := .rest } := fun k => by
    rw [h, forceZero_tower, if_pos (hall k)]
  refine ofRest (fun k => by rw [htower]) fun k hk => ?_
  rw [htower]
  exact (Tower.reordered_rest _).range hk

theorem ofOrdersOnly (h : OrdersOnly s t) : DriveKept s t :=
  ⟨fun law hd k => h.dsy.off (by rwa [h.dsy.ilkClosed, h.dsy.localPace] at hd) k
      (law (by rwa [h.dsy.ilkClosed, h.dsy.localPace] at hd) k),
   fun law k => (h.dsy.tower k).range (law k)⟩

/-- Operations that write no drive frame, after others. -/
theorem andOrders (h : DriveKept s t) (k : OrdersOnly t u) : DriveKept s u := h.trans (ofOrdersOnly k)

/-! ### DSY's own events -/

theorem writeFrames (f : FrameSource) (s : State) : DriveKept s (writeFrames f s) := by
  refine ofTowers (by rw [writeFrames_dsy]; exact id) fun k => ?_
  rw [writeFrames_dsy, write_tower]
  exact Tower.drive_driveKept ..

theorem ringFrame (f : FrameSource) (b : Bool) (s : State) : DriveKept s (ringFrame f b s) := by
  have hnumber : DriveKept s (s.setTxe { s.txe with frame := some f.number }) := ofDsy rfl
  exact ((hnumber.andOrders (frameEvent_ordersOnly f.number b s)).trans (writeFrames f _)).andOrders (ringFrame_ordersOnly ..)

/-- A frame at the ring pace after a change of DSY's pace and held values. -/
theorem ringFrameAfter (hs : DriveKept s t) (f : FrameSource) (b : Bool) {d : Dsy} (ht : d.towers = t.dsy.towers)
    (hoff : d.ilkClosed = false ∨ d.localPace = true → t.dsy.ilkClosed = false ∨ t.dsy.localPace = true) :
    DriveKept s (Machine.ringFrame f b (t.setDsy d)) := by
  refine (hs.trans (ofTowers hoff fun k => ?_)).trans (ringFrame f b _)
  rw [State.setDsy_dsy, ht]
  exact .refl _

theorem handValid (hs : DriveKept s t) (f : Sample) : DriveKept s (handValid f t) :=
  hs.ringFrameAfter _ _ rfl fun h => h.elim .inl fun h => nomatch h

theorem handHeld (hs : DriveKept s t) (pace : Nat) : DriveKept s (handHeld pace t) := hs.ringFrameAfter _ _ rfl id

theorem receiveSample (rx : Rx) (s : State) : DriveKept s (receiveSample rx s) := by
  unfold Machine.receiveSample
  split
  next f _ =>
    have h : DriveKept s (s.setRif (s.rif.takeValid f.number rx)) := ofDsy rfl
    have hgood := ite (p := s.rif.recv ≠ .good ∧ (s.setRif (s.rif.takeValid f.number rx)).rif.recv = .good)
      (h.andOrders (OrdersOnly.refl _).enterGood) h
    exact ite hgood (hgood.handValid f)
  next =>
    have h : DriveKept s (s.setRif (s.rif.takeFailed rx)) := ofDsy rfl
    exact ite h (h.handHeld _)

theorem missFrame (s : State) : DriveKept s (missFrame s) := by
  have h : DriveKept s (s.setRif { s.rif with frame := s.rif.nextFrame, slotOpen := false }) := ofDsy rfl
  exact ite (refl s) (h.handHeld _)

theorem localFrame (s : State) : DriveKept s (localFrame s) := by
  have h : DriveKept s (s.setDsy s.dsy.writeLocal) := by
    refine ofTowers id fun k => ?_
    rw [State.setDsy_dsy, Dsy.writeLocal, map_get]
    exact ⟨id, fun ⟨_, hphase, hramp⟩ => ⟨Nat.zero_le _, hphase, hramp⟩⟩
  exact ite (h.andOrders (OrdersOnly.refl _).takeAtRest) (refl s)

theorem lossExpiry (s : State) : DriveKept s (lossExpiry s) := by
  have h : DriveKept s (s.setDsy s.dsy.takeLost) := ofForced rfl
  exact ite (refl s) (((h.andOrders (((OrdersOnly.refl _).setRif _).takeLost.raise ..)).andOrders
    ((OrdersOnly.refl _).setRif _)).andOrders (OrdersOnly.refl _).takeAtRest)

theorem ilkLineOpen (s : State) : DriveKept s (ilkLineOpen s) := by
  have hline : DriveKept s (s.setDsy s.dsy.ilkOpens) := ofTowers id fun _ => .refl _
  refine ite ?_ hline
  refine andOrders (ofForced ?_) (OrdersOnly.refl _).takeInterlock.takeAtRest
  rfl

theorem ilkLineClosed (s : State) : DriveKept s (ilkLineClosed s) := ofTowers id fun _ => .refl _

theorem ilkQualified (s : State) : DriveKept s (ilkQualified s) :=
  ite (ofTowers (fun h => h.elim (fun h => nomatch h) .inr) fun _ => .refl _) (refl s)

/-- A change of the cabinet's part of one tower. -/
theorem setCabinet (i : TowerIx) (f : Tower → Tower) (hf : ∀ x : Tower, x.DriveKept (f x)) :
    DriveKept s (s.setDsy { s.dsy with towers := modifyAt s.dsy.towers i f }) := by
  refine ofTowers id fun k => ?_
  rw [State.setDsy_dsy, modifyAt_get]
  split
  next h => rw [h]; exact hf _
  next => exact .refl _

theorem rdyDebounced (i : TowerIx) (s : State) : DriveKept s (rdyDebounced i s) := by
  have h : DriveKept s (s.setDsy (s.dsy.rdySettled i)) := setCabinet i _ fun _ => ⟨id, id⟩
  exact ite (ite (h.andOrders ((OrdersOnly.refl _).raise ..)) (h.andOrders (((OrdersOnly.refl _).raise ..).takeCabinetLoss i)))
    (refl s)

/-- A tower at its power-on value but for its line and debounce. -/
theorem ofReset {f : Tower → Tower} (h : t.dsy.towers = s.dsy.towers.map f) (hamp : ∀ x, (f x).amp = 0)
    (hphase : ∀ x, (f x).phase = 0) (horder : ∀ x, (f x).order = .rest) : DriveKept s t := by
  refine ofRest (fun k => by rw [h, map_get, horder]) fun k _ => ?_
  rw [h, map_get]
  refine ⟨by rw [hamp]; exact Nat.zero_le _, by rw [hphase]; decide, fun r hr => ?_⟩
  rw [horder] at hr
  cases hr

theorem powerOn (a : BitVec 4) (s : State) : DriveKept s (powerOn a s) := ofReset rfl (fun _ => rfl) (fun _ => rfl) fun _ => rfl

theorem resetHeld (s : State) : DriveKept s (resetHeld s) := ofReset rfl (fun _ => rfl) (fun _ => rfl) fun _ => rfl

theorem restartBlocks (s : State) : DriveKept s (restartBlocks s) := by
  have hforced : DriveKept s (s.setDsy (s.dsy.forceZero (BitVec.allOnes 8))) := ofForced rfl
  refine hforced.trans (ofTowers id fun k => ?_)
  show Tower.DriveKept _ (Vector.map _ _)[k]
  rw [map_get]
  exact ⟨id, id⟩

theorem idle (s : State) : DriveKept s (idle s) := by
  unfold Machine.idle
  split
  · split
    · exact ofDsy rfl
    · refine ite (ite ?_ ?_) (refl s)
      · refine ofTowers id fun k => ?_
        show Tower.DriveKept _ (Vector.map _ _)[k]
        rw [map_get]
        exact ⟨id, id⟩
      · exact ofTowers id fun _ => .refl _
  · exact refl s

/-! ### Commands -/

theorem whileRunning {f : State → State} (hf : DriveKept s (f s)) : DriveKept s (whileRunning f s) := ite hf (refl s)

theorem whileCounting {f : State → State} (hf : DriveKept s (f s)) : DriveKept s (whileCounting f s) := ite hf (refl s)

/-- A command of CMU keeps the laws when its block does (R166). -/
theorem serve {c : Cmd} {body : Mgmt → State → State × Answer} (hb : ∀ m, DriveKept s (body m s).1) :
    DriveKept s (Machine.whileRunning (serve c body) s) := by
  refine whileRunning ?_
  unfold Machine.serve
  split
  · exact refl s
  next m _ _ =>
    refine ite ?_ (refl s)
    unfold runCommand
    split
    · exact ofDsy rfl
    · exact (hb m).trans (ofDsy rfl)

theorem serveUnknown (s : State) : DriveKept s (serveUnknown s) := by
  unfold Machine.serveUnknown
  split
  · exact refl s
  · exact ite (ofDsy rfl) (refl s)

end DriveKept

/-- Every command keeps the laws of the drive. -/
theorem exec_driveKept (i : Instr) (s : State) : ∃ t, exec i s = .next t ∧ DriveKept s t := by
  have o := OrdersOnly.refl s
  have running : ∀ {f : State → State}, OrdersOnly s (f s) → DriveKept s (whileRunning f s) := fun hf =>
    .whileRunning (.ofOrdersOnly hf)
  have counting : ∀ {f : State → State}, OrdersOnly s (f s) → DriveKept s (whileCounting f s) := fun hf =>
    .whileCounting (.ofOrdersOnly hf)
  have served : ∀ {c : Cmd} {body : Mgmt → State → State × Answer}, (∀ m, OrdersOnly s (body m s).1) →
      DriveKept s (whileRunning (serve c body) s) := fun hb => .serve fun m => .ofOrdersOnly (hb m)
  cases i with
  | powerOnReset a => exact ⟨_, rfl, .powerOn a s⟩
  | resetAsserted => exact ⟨_, rfl, .resetHeld s⟩
  | refclkStopped => exact ⟨_, rfl, .ofDsy rfl⟩
  | refclkReturned => exact ⟨_, rfl, .ofDsy rfl⟩
  | sampleFrame rx => exact ⟨_, rfl, .whileRunning (.receiveSample rx s)⟩
  | missedFrame => exact ⟨_, rfl, .whileCounting (.missFrame s)⟩
  | localPaceFrame => exact ⟨_, rfl, .whileCounting (.localFrame s)⟩
  | lossTimerExpiry => exact ⟨_, rfl, .whileCounting (.lossExpiry s)⟩
  | mgmtFrame rx => exact ⟨_, rfl, running (o.receiveMgmt rx)⟩
  | timeFrame rx => exact ⟨_, rfl, running (o.receiveTime rx)⟩
  | releaseFrame rx => exact ⟨_, rfl, running (o.receiveRelease rx)⟩
  | emptyFrame rx => exact ⟨_, rfl, running (o.receiveEmpty rx)⟩
  | status => exact ⟨_, rfl, served fun _ => o⟩
  | switch => exact ⟨_, rfl, served o.switchBody⟩
  | withdraw => exact ⟨_, rfl, served o.withdrawBody⟩
  | go => exact ⟨_, rfl, served o.goBody⟩
  | continueTx => exact ⟨_, rfl, served o.continueBody⟩
  | retreat => exact ⟨_, rfl, served o.retreatBody⟩
  | mute => exact ⟨_, rfl, served fun _ => (o.withdraw .mute).muteArray _⟩
  | move => exact ⟨_, rfl, served o.moveBody⟩
  | ackFault => exact ⟨_, rfl, served fun _ => o.setMon _⟩
  | trimClear => exact ⟨_, rfl, served o.trimClearBody⟩
  | scheduleHold => exact ⟨_, rfl, served o.scheduleHoldBody⟩
  | claim => exact ⟨_, rfl, served o.claimBody⟩
  | load => exact ⟨_, rfl, served o.loadBody⟩
  | commit => exact ⟨_, rfl, served o.commitBody⟩
  | finish => exact ⟨_, rfl, served o.finishBody⟩
  | unclaim => exact ⟨_, rfl, served o.unclaimBody⟩
  | read => exact ⟨_, rfl, served fun _ => o⟩
  | reporting => exact ⟨_, rfl, served fun _ => o.setRif _⟩
  | clearOverflow => exact ⟨_, rfl, served fun _ => o.setCmu _⟩
  | restart => exact ⟨_, rfl, .serve fun _ => .restartBlocks s⟩
  | interlockOpening => exact ⟨_, rfl, .ilkLineOpen s⟩
  | interlockLineClosed => exact ⟨_, rfl, .ilkLineClosed s⟩
  | interlockQualified => exact ⟨_, rfl, .whileCounting (.ilkQualified s)⟩
  | rdyLineChange t b =>
    refine ⟨_, rfl, ?_⟩
    rw [apply_ite s.setDsy]
    exact .ite (.setCabinet t _ fun _ => ⟨id, id⟩) (.setCabinet t _ fun _ => ⟨id, id⟩)
  | cabinetDebounceExpiry t => exact ⟨_, rfl, .whileCounting (.rdyDebounced t s)⟩
  | auxInputChange c a b => exact ⟨_, rfl, .ofOrdersOnly (o.setCtu _)⟩
  | auxDebounceExpiry c a => exact ⟨_, rfl, counting (o.auxDebounced c a)⟩
  | travelLimitExpiry c => exact ⟨_, rfl, counting (o.travelExpired c)⟩
  | settleTimerExpiry => exact ⟨_, rfl, counting o.settleExpired⟩
  | gateTimerExpiry => exact ⟨_, rfl, counting o.gateExpired⟩
  | checkCompletion x => exact ⟨_, rfl, running (o.completeCheck x)⟩
  | claimLapse x => exact ⟨_, rfl, counting (o.lapse x)⟩
  | monitorRecord rx => exact ⟨_, rfl, running (o.takeRecord rx)⟩
  | absenceTimerExpiry => exact ⟨_, rfl, counting o.absenceExpiry⟩
  | holdOffExpiry => exact ⟨_, rfl, counting (o.setMon _)⟩
  | staleTimerExpiry => exact ⟨_, rfl, counting o.staleExpiry⟩
  | unknownCommand => exact ⟨_, rfl, .whileRunning (.serveUnknown s)⟩

/-- Settles O55: an operation that writes no drive frame only puts towers under other orders, never one out of REST while drive
is off; a drive frame advances each tower within its ranges; every other event of DSY stops the drive or leaves it as it is. -/
theorem stepsKeepTheDriveLaws : Obligations.StepsKeepTheDriveLaws := by
  intro s t hstep
  have h : DriveKept s t := by
    unfold step at hstep
    split at hstep
    next =>
      cases hstep
      exact .idle s
    next c rest _ =>
      obtain ⟨u, hu, hkept⟩ := exec_driveKept c (s.setPending rest)
      rw [hu] at hstep
      cases hstep
      exact DriveKept.trans (t := s.setPending rest) (.ofDsy rfl) hkept
  exact ⟨h.off, h.range⟩

end Sys2Proof.Machine
end

section
/-! SUPPORT. Frames at the ring pace and at the local pace: sample frames handed over and not, failed and missed frames, local
frames. -/
namespace Sys2Proof.Machine

/-! ## A drive frame (R22, R28) -/

theorem clips_iff (amp : Nat) (e : Word) : clips amp e = true ↔ 65535 < rawSample amp e := decide_eq_true_iff

theorem Tower.frame_saturated_iff (x : Tower) (n : FrameNum) (ref : Word) (env : List Word) :
    (x.frame n ref env).saturated = true ↔ ∃ e ∈ env, 65535 < rawSample x.amp e := by
  simp only [Tower.frame, List.any_eq_true, clips_iff]

theorem TowerOrder.isRamp_iff (o : TowerOrder) : o.isRamp = true ↔ ∃ r, o = .ramp r := by
  cases o <;> simp [TowerOrder.isRamp]

theorem Tower.driveState_ramping_iff (x : Tower) : x.driveState = .ramping ↔ ∃ r, x.order = .ramp r := by
  rw [← TowerOrder.isRamp_iff]
  unfold Tower.driveState
  split_ifs <;> simp_all

theorem Tower.driveState_idle_iff (x : Tower) : x.driveState = .idle ↔ (∀ r, x.order ≠ .ramp r) ∧ x.amp = 0 := by
  rw [← not_exists, ← TowerOrder.isRamp_iff]
  unfold Tower.driveState
  split_ifs <;> simp_all

/-! ## A frame at the ring pace (R22, R27, R64) -/

/-- t stands after one frame at the ring pace from s, built from g: TXE's frame number and DSY's last-written one are its own,
DSY's pace and held values stay, and every port shows a drive frame of its tower's values. -/
structure RingFramed (g : FrameSource) (s t : State) : Prop where
  rif       : t.rif = s.rif
  frame     : t.txe.frame = some g.number
  number    : t.dsy.lastNumber = some g.number
  localPace : t.dsy.localPace = s.dsy.localPace
  paceLeft  : t.dsy.paceLeft = s.dsy.paceLeft
  envelope  : t.dsy.heldEnvelope = s.dsy.heldEnvelope
  reference : t.dsy.heldReference = s.dsy.heldReference
  port      : ∀ k : TowerIx, ∃ x : Tower, t.dsy.towers[k].port = some (x.frame g.number g.reference g.envelope)
                ∧ x.amp = t.dsy.towers[k].amp ∧ x.phase = t.dsy.towers[k].phase

theorem ringFrame_framed (g : FrameSource) (b : Bool) (s : State) : RingFramed g s (ringFrame g b s) := by
  have before := (frameEvent_ordersOnly g.number b s).dsy
  have after := ringFrame_ordersOnly g b s
  have hframe := after.frame
  rw [writeFrames_txe, (frameEvent_ordersOnly g.number b s).frame] at hframe
  have hdsy := after.dsy
  rw [writeFrames_dsy] at hdsy
  refine ⟨(ringFrame_keeps ..).rif, hframe, hdsy.lastNumber, hdsy.localPace.trans before.localPace,
    hdsy.paceLeft.trans before.paceLeft, hdsy.heldEnvelope.trans before.heldEnvelope,
    hdsy.heldReference.trans before.heldReference, fun k => ?_⟩
  have htower := hdsy.tower k
  rw [write_tower] at htower
  exact ⟨_, htower.port, htower.amp.symm, htower.phase.symm⟩

theorem handValid_framed (f : Sample) (s : State) :
    RingFramed (sampleSource f) (s.setDsy (s.dsy.takeValid f)) (handValid f s) := ringFrame_framed ..

theorem handHeld_framed (pace : Nat) (s : State) :
    RingFramed s.dsy.heldSource (s.setDsy { s.dsy with paceLeft := pace }) (handHeld pace s) := ringFrame_framed ..

theorem Dsy.renumbers_iff (d : Dsy) (n : FrameNum) :
    d.renumbers n = true ↔ ∃ m, d.lastNumber = some m ∧ n ≠ m + 1 := by
  unfold Dsy.renumbers
  cases d.lastNumber <;> simp

/-- The eight drive frames, with the records of the towers that clip (R22, R28, R29). -/
theorem writeFrames_spec (g : FrameSource) (v : State) :
    let w := writeFrames g v
    let y := fun t : TowerIx => (v.dsy.towers[t].advance v.pst t).1
    w = (v.setDsy { v.dsy with towers := w.dsy.towers, lastNumber := some g.number }).setCmu w.cmu
    ∧ (∀ t : TowerIx, w.dsy.towers[t] = { y t with
          port := some ((y t).frame g.number g.reference g.envelope)
          clipNoticed := (y t).clipNoticed || g.envelope.any fun e => decide (65535 < rawSample (y t).amp e) })
    ∧ w.cmu = ((List.finRange 8).filterMap fun t => if (y t).clipNoticed then none else
          (g.envelope.find? fun e => decide (65535 < rawSample (y t).amp e)).map fun e =>
            Record.notice .clipping v.stamp (subjectOf t.val) none [word (min 65535 (y t).amp), e]).foldl Cmu.enter v.cmu := by
  intro w y
  have hw : w = (v.setDsy (v.dsy.write v.pst g)).setCmu
      (v.cmu.enterAll (clipNotices v.dsy g (v.setDsy (v.dsy.write v.pst g)))) := writeFrames_eq g v
  refine ⟨by rw [hw]; rfl, fun t => ?_, ?_⟩
  · rw [hw]
    exact write_tower ..
  · have hnotices : clipNotices v.dsy g (v.setDsy (v.dsy.write v.pst g)) = (List.finRange 8).filterMap fun t =>
        if (y t).clipNoticed then none else (g.envelope.find? fun e => decide (65535 < rawSample (y t).amp e)).map fun e =>
          Record.notice .clipping v.stamp (subjectOf t.val) none [word (min 65535 (y t).amp), e] := by
      rw [← allTowers_eq]
      refine List.filterMap_congr fun t _ => ?_
      show Option.map _ (if (y t).clipNoticed then none else Option.map _ (g.envelope.find? (clips (y t).amp))) = _
      split
      · rfl
      · rw [Option.map_map]; rfl
    rw [hw, ← hnotices]
    rfl

/-! ## Sample frames (R154, R157) -/

section
variable {rx : Rx} {s : State} {f : Sample}

theorem exec_sampleFrame (hrun : s.running = true) : exec (.sampleFrame rx) s = .next (receiveSample rx s) :=
  congrArg Host.Outcome.next (if_pos hrun)

theorem receiveSample_valid (hf : parseSample rx = some f) : receiveSample rx s = receiveValid f rx s := by
  simp only [receiveSample, hf]

theorem receiveSample_failed (hf : parseSample rx = none) : receiveSample rx s = receiveFailed rx s := by
  simp only [receiveSample, hf]

theorem Rif.follows_iff (r : Rif) (n : FrameNum) : r.follows n = true ↔ r.run ≠ 0 ∧ r.last = some (n - 1) := by
  unfold Rif.follows
  cases r.last with
  | none => simp
  | some m =>
    have hnext : n = m + 1 ↔ m = n - 1 := by rw [eq_sub_iff_add_eq, eq_comm]
    rw [Bool.and_eq_true, bne_iff_ne, beq_iff_eq, hnext, Option.some_inj]

/-- Outside HUNT, or with a run of two, RIF hands the frame over (R154, R157). -/
theorem Rif.takeValid_hunt_iff (r : Rif) (n : FrameNum) :
    (r.takeValid n rx).recv = .hunt ↔ r.recv = .hunt ∧ ¬ (r.run ≠ 0 ∧ r.last = some (n - 1)) := by
  unfold Rif.takeValid Rif.stepValid
  cases hrecv : r.recv with
  | good => simp
  | sync => dsimp only; split_ifs <;> simp
  | hunt =>
    dsimp only
    split_ifs with hfol hrun
    · have := (r.follows_iff n).1 hfol
      tauto
    · have := (r.follows_iff n).1 hfol
      omega
    · have := mt (r.follows_iff n).2 hfol
      tauto

/-- Only from SYNC does a valid sample frame enter GOOD (R154, R156). -/
theorem Rif.takeValid_enters (r : Rif) (n : FrameNum) (h : r.recv ≠ .good ∧ (r.takeValid n rx).recv = .good) :
    r.recv = .sync := by
  obtain ⟨hbefore, hafter⟩ := h
  cases hrecv : r.recv with
  | sync => rfl
  | good => exact absurd hrecv hbefore
  | hunt =>
    unfold Rif.takeValid Rif.stepValid at hafter
    simp only [hrecv] at hafter
    split_ifs at hafter

/-- The state in which a valid sample frame is handed over: RIF has taken it, and has entered GOOD where it does. -/
def ringTaken (f : Sample) (rx : Rx) (s : State) : State :=
  if s.rif.recv ≠ .good ∧ (s.rif.takeValid f.number rx).recv = .good then enterGood (s.setRif (s.rif.takeValid f.number rx))
  else s.setRif (s.rif.takeValid f.number rx)

theorem receiveValid_handed (h : (s.rif.takeValid f.number rx).recv ≠ .hunt) :
    receiveValid f rx s = handValid f (ringTaken f rx s) := if_neg h

theorem receiveValid_unhanded (h : (s.rif.takeValid f.number rx).recv = .hunt) :
    receiveValid f rx s = s.setRif (s.rif.takeValid f.number rx) := by
  have hgood : ¬ (s.rif.recv ≠ .good ∧ (s.rif.takeValid f.number rx).recv = .good) := fun hg => by simp [h] at hg
  exact (if_pos h).trans (if_neg hgood)

theorem ringTaken_rif : (ringTaken f rx s).rif.frame = (s.rif.takeValid f.number rx).frame
    ∧ (ringTaken f rx s).rif.recv = (s.rif.takeValid f.number rx).recv := by
  unfold ringTaken
  split
  · rw [enterGood_rif]; exact ⟨rfl, rfl⟩
  · exact ⟨rfl, rfl⟩

/-- Where GOOD is not entered the frame is handed over with RIF alone changed. -/
theorem handValid_ringTaken (h : ¬ (s.rif.recv ≠ .good ∧ (s.rif.takeValid f.number rx).recv = .good)) :
    handValid f (ringTaken f rx s) = handValid f (s.setRif (handValid f (ringTaken f rx s)).rif) := by
  rw [handValid_rif, show ringTaken f rx s = s.setRif (s.rif.takeValid f.number rx) from if_neg h]
  rfl

/-- A failed sample frame in HUNT or at the local pace changes RIF alone (R157). -/
theorem receiveFailed_unhanded (h : s.rif.recv = .hunt ∨ s.dsy.localPace = true) :
    receiveFailed rx s = s.setRif (s.rif.takeFailed rx) := if_pos h

theorem receiveFailed_handed (h : s.rif.recv ≠ .hunt) (hpace : s.dsy.localPace = false) :
    receiveFailed rx s = handHeld 3 (s.setRif (s.rif.takeFailed rx)) := if_neg (by simp [h, hpace])

end

/-- Settles O8: a frame that RIF hands over runs `ringFrame`, whose facts are `ringFrame_framed` and `writeFrames_spec`. -/
theorem handedSampleFrameReachesEveryPort : Obligations.HandedSampleFrameReachesEveryPort := by
  refine ⟨fun rx s hrun => ⟨fun f hf hhand => ?_, fun hhunt hrow => ?_⟩, fun f u => ?_, fun g b u => ?_, writeFrames_spec⟩
  · have hhanded : (s.rif.takeValid f.number rx).recv ≠ .hunt := by
      rw [Ne, Rif.takeValid_hunt_iff]
      tauto
    have hframed := handValid_framed f (ringTaken f rx s)
    refine ⟨handValid f (ringTaken f rx s), ?_, fun _ => ?_, fun hsync => ?_, ?_, hframed.frame, hframed.localPace,
      hframed.number, hframed.envelope, hframed.reference, fun k => ?_⟩
    · rw [exec_sampleFrame hrun, receiveSample_valid hf, receiveValid_handed hhanded]
    · by_cases hgood : s.rif.recv ≠ .good ∧ (s.rif.takeValid f.number rx).recv = .good
      · left
        rw [handValid_rif, ringTaken_rif.2]
        exact hgood.2
      · exact .inr (handValid_ringTaken hgood)
    · exact handValid_ringTaken fun hgood => hsync (Rif.takeValid_enters _ _ hgood)
    · rw [handValid_rif, ringTaken_rif.1]
      exact if_neg hhanded
    · obtain ⟨x, hport, hamp, hphase⟩ := hframed.port k
      rw [← hamp, ← hphase]
      exact ⟨_, hport, rfl, rfl, rfl, rfl, x.frame_saturated_iff .., fun hidle => (x.driveState_idle_iff.1 hidle).2⟩
  · rw [exec_sampleFrame hrun]
    cases hf : parseSample rx with
    | none =>
      rw [receiveSample_failed hf, receiveFailed_unhanded (.inl hhunt)]
      exact ⟨_, rfl, rfl, if_pos hhunt⟩
    | some f =>
      have hstays := (s.rif.takeValid_hunt_iff (rx := rx) f.number).2 ⟨hhunt, hrow f hf⟩
      rw [receiveSample_valid hf, receiveValid_unhanded hstays]
      exact ⟨_, rfl, rfl, if_pos hstays⟩
  · exact ⟨u.dsy.renumbers f.number, rfl, u.dsy.renumbers_iff f.number⟩
  · rw [← allTowers_eq]
    rfl

/-! ## Failed, missed and local frames (R30, R31) -/

/-- What a failed or missed frame leaves: the number after the last one written, the held values unchanged and at every port
(R30). -/
theorem handHeld_facts (pace : Nat) (s : State) (hpace : s.dsy.localPace = false) :
    let t := handHeld pace s
    t.txe.frame = some s.dsy.nextNumber
    ∧ t.dsy.lastNumber = some s.dsy.nextNumber ∧ t.dsy.paceLeft = pace ∧ t.dsy.localPace = false
    ∧ t.dsy.heldEnvelope = s.dsy.heldEnvelope ∧ t.dsy.heldReference = s.dsy.heldReference
    ∧ ∀ k : TowerIx, ∃ d, t.dsy.towers[k].port = some d ∧ d.number = s.dsy.nextNumber
        ∧ d.reference = s.dsy.heldReference ∧ d.phase = t.dsy.towers[k].phase
        ∧ d.samples = List.replicate 48 (driveSample t.dsy.towers[k].amp s.dsy.heldEnvelope) := by
  have hframed := handHeld_framed pace s
  refine ⟨hframed.frame, hframed.number, hframed.paceLeft, hframed.localPace.trans hpace, hframed.envelope, hframed.reference,
    fun k => ?_⟩
  obtain ⟨x, hport, hamp, hphase⟩ := hframed.port k
  rw [← hamp, ← hphase]
  exact ⟨_, hport, rfl, rfl, rfl, List.map_replicate⟩

theorem exec_missedFrame {s : State} (h : Counting s) : exec .missedFrame s = .next (missFrame s) := by
  simp only [exec, execMissedFrame, whileCounting, h.1, h.2, Bool.and_self, if_true]

/-- Settles O9: a failed or missed frame that is handed over runs `ringFrame` from the held values (`handHeld_facts`). -/
theorem failedAndMissedFramesUseHeldValues : Obligations.FailedAndMissedFramesUseHeldValues := by
  refine ⟨fun pace u => ⟨rfl, fun h => ?_, fun n h => ?_⟩, fun rx s hrun hf hunhanded => ?_, fun s hpace => ?_,
    fun s hrun hpace => ⟨fun rx hf hrecv => ?_, fun hclk => ?_⟩⟩
  · rw [Dsy.nextNumber, h]
  · rw [Dsy.nextNumber, h]
  · refine ⟨_, exec_sampleFrame hrun, ?_⟩
    rw [receiveSample_failed hf, receiveFailed_unhanded hunhanded]
    exact ⟨rfl, rfl⟩
  · have hmiss : missFrame s = s := if_pos hpace
    show Host.Outcome.next (whileCounting missFrame s) = _
    rw [whileCounting, hmiss, ite_self]
  · refine ⟨_, exec_sampleFrame hrun, ?_⟩
    rw [receiveSample_failed hf, receiveFailed_handed hrecv hpace, handHeld_rif]
    exact ⟨rfl, if_neg hrecv, handHeld_facts 3 (s.setRif (s.rif.takeFailed rx)) hpace⟩
  · have hmiss : missFrame s = handHeld 2 (s.setRif { s.rif with frame := s.rif.nextFrame, slotOpen := false }) :=
      if_neg (by simp [hpace])
    refine ⟨_, exec_missedFrame ⟨hrun, hclk⟩, ?_⟩
    rw [hmiss, handHeld_rif]
    exact ⟨rfl, rfl, handHeld_facts 2 _ hpace⟩

theorem exec_localPaceFrame {s : State} (h : Counting s) : exec .localPaceFrame s = .next (localFrame s) := by
  simp only [exec, execLocalPaceFrame, whileCounting, h.1, h.2, Bool.and_self, if_true]

theorem writeLocal_tower (d : Dsy) (k : TowerIx) :
    d.writeLocal.towers[k] = d.towers[k].localFrame d.nextNumber d.heldReference := map_get ..

/-- Settles O10: the ports are written, and the at-rest changes are handed on, which change no drive frame. -/
theorem localPaceFramesAreIdle : Obligations.LocalPaceFramesAreIdle := by
  intro s hcount
  rw [exec_localPaceFrame hcount]
  refine ⟨fun hpace => congrArg _ (if_pos hpace), fun hpace => ⟨_, rfl, ?_⟩,
    fun hpace => congrArg _ (if_neg (by simp [hpace]))⟩
  rw [show localFrame s = takeAtRest (s.setDsy s.dsy.writeLocal) from if_pos hpace]
  have horders := (OrdersOnly.refl (s.setDsy s.dsy.writeLocal)).takeAtRest
  have hdsy := horders.dsy
  refine ⟨(takeAtRest_keeps _).rif, horders.frame, hdsy.localPace.trans hpace, hdsy.lastNumber, hdsy.heldEnvelope,
    hdsy.heldReference, hdsy.paceLeft, fun k => ?_⟩
  have htower := hdsy.tower k
  rw [State.setDsy_dsy, writeLocal_tower] at htower
  exact ⟨htower.amp, htower.phase, htower.ready, htower.port⟩

end Sys2Proof.Machine
end

section
/-! SUPPORT. A halt as the state it leaves; the ILK line in every array state; the RDY lines and their debounce. -/
namespace Sys2Proof.Machine

/-! ## A halt (R84 to R88) -/

/-- The state as HALTED is entered: nothing armed, the orders given, the record counted, the guard NONE, the notices raised up
to TX_HALTED (R85 steps 1 to 8). -/
def haltEntered (r : HaltReason) (h : HaltContext) (s : State) : State :=
  { s with
    txe := { s.txe with array := .halted h, armed := none, history := countHalt s.txe.history }
    dsy := haltOrders r s.dsy
    ctu := { s.ctu with guard := none }
    cmu := s.cmu.enterAll (withdrawnNotice 4 s ++ [haltedNotice h s]) }

theorem stamp_setDsy {s : State} {d : Dsy} (h : d.localPace = s.dsy.localPace) : (s.setDsy d).stamp = s.stamp := by
  rw [State.stamp, State.stamp, State.setDsy_dsy, h]
  rfl

theorem countHalt_newestSeq (x : Txe) : (({ x with history := countHalt x.history } : Txe)).newestSeq = x.newestSeq := by
  unfold Txe.newestSeq
  cases x.history <;> rfl

theorem halt_entered {s : State} {v : HaltView} (r : HaltReason) (u : HaltSubject) (hv : haltView s = some v) :
    let h := formHalt r u v s.txe.newestSeq
    halt r u s = tellStopped (restAtEntry h (haltEntered r h s)) := by
  intro h
  have hh : h = formHalt r u v ({ s.txe with history := countHalt s.txe.history } : Txe).newestSeq := by
    rw [countHalt_newestSeq]
  have hnotice : haltedNotice h s = haltedNotice h (s.setDsy (haltOrders r s.dsy)) := by
    unfold haltedNotice
    rw [stamp_setDsy (haltOrders_reordered r s.dsy).localPace]
  unfold halt haltEntered
  rw [hv, hnotice, Cmu.enterAll_append, withdraw_eq, hh]
  rfl

/-- A halt as the state it leaves: its context with whether TX_AT_REST was raised, MON out of ACTIVE, no deferred entry, and the
notices in their order (R85, R88, R108, R132). -/
theorem halt_eq {s : State} {v : HaltView} (r : HaltReason) (u : HaltSubject) (hv : haltView s = some v) :
    let k := { formHalt r u v s.txe.newestSeq with restNoticed := (haltOrders r s.dsy).allAtRest }
    halt r u s = { s with
      txe := { s.txe with array := .halted k, armed := none, history := countHalt s.txe.history }
      dsy := haltOrders r s.dsy
      ctu := { s.ctu with guard := none }
      mon := s.mon.leaveActive
      scu := { s.scu with deferred := none }
      cmu := s.cmu.enterAll (withdrawnNotice 4 s ++ [haltedNotice k s] ++ (if k.restNoticed then [atRestNotice k s] else [])
        ++ discardedNotice s) } := by
  intro k
  have hstamp := stamp_setDsy (haltOrders_reordered r s.dsy).localPace
  have hrest : atRestNotice k (s.setDsy (haltOrders r s.dsy)) = atRestNotice k s := by
    unfold atRestNotice
    rw [hstamp]
  have hdiscard : discardedNotice (s.setDsy (haltOrders r s.dsy)) = discardedNotice s := by
    unfold discardedNotice
    rw [hstamp]
    rfl
  rw [halt_entered r u hv, restAtEntry_eq _ _ rfl rfl, tellStopped_eq, ← hrest, ← hdiscard,
    Cmu.enterAll_append _ _ (discardedNotice _), Cmu.enterAll_append _ (withdrawnNotice 4 s ++ _)]
  rfl

/-! ## The ILK line opens (R34, R35, R103) -/

/-- The array is in a phase of a transition, or in one of the five other states. -/
theorem ArrayState.phase_or (a : ArrayState) : (∃ c, a.context = some c) ∨ (∃ p, a = .active p) ∨ a = .muting
    ∨ a = .unset ∨ (∃ r, a = .muted r) ∨ ∃ h, a = .halted h := by
  cases a <;> simp [ArrayState.context]

/-- The state as TXE responds to an opening: OPEN, every tower REST, nothing armed, with INTERLOCK_OPENED and ARMED_WITHDRAWN. -/
def interlockOpen (s : State) : State :=
  { s with
    dsy := { s.dsy.forceZero (BitVec.allOnes 8) with ilkClosed := false, ilkLine := false, ilkTimer := none }
    txe := { s.txe with armed := none }
    cmu := s.cmu.enterAll ([.notice .interlockOpened s.stamp none none []] ++ withdrawnNotice 7 s) }

theorem interlockOpen_tower (s : State) (k : TowerIx) :
    (interlockOpen s).dsy.towers[k] = { s.dsy.towers[k] with order := .rest } := by
  have hall : ∀ k : TowerIx, has (BitVec.allOnes 8) k = true := by decide
  exact (forceZero_tower ..).trans (if_pos (hall k))

/-- What TXE makes of an opening in each array state (R103). -/
def interlockResponse (s : State) : State :=
  match s.txe.array with
  | .active _ => enterMuted .interlock none (setGuard none (interlockOpen s))
  | .rampDown _ | .switching _ | .settle _ _ | .readyUp _ _ | .rampUp _ _ => halt .interlock .none (interlockOpen s)
  | .muting => enterMuted .interlock none (interlockOpen s)
  | .muted _ => (interlockOpen s).setArray (.muted none)
  | .unset | .halted _ => interlockOpen s

theorem exec_interlockOpening {s : State} (hrun : s.running = true) (hclosed : s.dsy.ilkClosed = true) :
    exec .interlockOpening s = .next (takeAtRest (interlockResponse s)) := by
  have hopens : ilkLineOpen s = interlockOpens (s.setDsy s.dsy.ilkOpens) := if_pos (by rw [hrun, hclosed]; rfl)
  refine congrArg Host.Outcome.next (hopens.trans (congrArg takeAtRest ?_))
  unfold takeInterlock interlockResponse
  rw [withdraw_eq]
  rfl

section
variable {s : State}

theorem takeAtRest_quiet (h : s.txe.array = .unset ∨ ∃ r, s.txe.array = .muted r) : takeAtRest s = s := by
  unfold takeAtRest
  rcases h with h | ⟨r, h⟩ <;> rw [h]

/-- In HALTED the at-rest change raises TX_AT_REST once (R88). -/
theorem takeAtRest_halted_eq {h : HaltContext} (ha : s.txe.array = .halted h) :
    takeAtRest s = if h.restNoticed = false ∧ s.dsy.allAtRest = true then noteAtRest h s else s := by
  unfold takeAtRest
  rw [ha]

/-- ACTIVE and MUTING go to MUTED. -/
theorem opening_muted {g : Option Slot} (h : interlockResponse s = enterMuted .interlock none (setGuard g (interlockOpen s))) :
    takeAtRest (interlockResponse s) = { interlockOpen s with
      txe := { s.txe with array := .muted none, armed := none }
      ctu := { s.ctu with guard := g }
      mon := s.mon.leaveActive
      scu := { s.scu with deferred := none }
      cmu := (interlockOpen s).cmu.enterAll ([mutedNotice none 3 s] ++ discardedNotice s) } := by
  rw [h, enterMuted_eq, takeAtRest_quiet (.inr ⟨none, rfl⟩)]
  rfl

theorem opening_active {p : Slot} (ha : s.txe.array = .active p) :
    interlockResponse s = enterMuted .interlock none (setGuard none (interlockOpen s)) := by
  unfold interlockResponse
  rw [ha]

theorem opening_muting (ha : s.txe.array = .muting) :
    interlockResponse s = enterMuted .interlock none (setGuard s.ctu.guard (interlockOpen s)) := by
  unfold interlockResponse
  rw [ha]
  rfl

/-- A phase halts, its towers forced to REST already. -/
theorem opening_phase {c : TxContext} (hc : s.txe.array.context = some c) {v : HaltView} (hv : haltView s = some v) :
    let k := { formHalt .interlock .none v s.txe.newestSeq with restNoticed := (interlockOpen s).dsy.allAtRest }
    takeAtRest (interlockResponse s) = { interlockOpen s with
      txe := { s.txe with array := .halted k, armed := none, history := countHalt s.txe.history }
      ctu := { s.ctu with guard := none }
      mon := s.mon.leaveActive
      scu := { s.scu with deferred := none }
      cmu := (interlockOpen s).cmu.enterAll ([haltedNotice k s] ++ (if k.restNoticed then [atRestNotice k s] else [])
        ++ discardedNotice s) } := by
  intro k
  have hresponse : interlockResponse s = halt .interlock .none (interlockOpen s) := by
    unfold interlockResponse
    cases ha : s.txe.array with
    | rampDown | switching | settle | readyUp | rampUp => rfl
    | unset | active | halted | muting | muted =>
      rw [ha] at hc
      cases hc
  have hview : haltView (interlockOpen s) = some v := (haltView_congr rfl rfl rfl).trans hv
  have hhalt := hresponse.trans (halt_eq .interlock .none hview)
  have harray : (interlockResponse s).txe.array = .halted k := by rw [hhalt]; rfl
  have hdsy : (interlockResponse s).dsy = (interlockOpen s).dsy := by rw [hhalt]; rfl
  have hsettled : ¬ (k.restNoticed = false ∧ (interlockResponse s).dsy.allAtRest = true) := by
    rw [hdsy]
    exact fun ⟨hnot, hrest⟩ => Bool.noConfusion (hnot.symm.trans hrest)
  rw [takeAtRest_halted_eq harray, if_neg hsettled, hhalt]
  rfl

theorem opening_mutedAlready {r : Option Slot} (ha : s.txe.array = .muted r) :
    takeAtRest (interlockResponse s) = (interlockOpen s).setArray (.muted none) := by
  have hresponse : interlockResponse s = (interlockOpen s).setArray (.muted none) := by
    unfold interlockResponse
    rw [ha]
  rw [hresponse]
  exact takeAtRest_quiet (.inr ⟨none, rfl⟩)

theorem opening_unset (ha : s.txe.array = .unset) : takeAtRest (interlockResponse s) = interlockOpen s := by
  have hresponse : interlockResponse s = interlockOpen s := by
    unfold interlockResponse
    rw [ha]
  rw [hresponse]
  exact takeAtRest_quiet (.inl ha)

theorem opening_halted {h : HaltContext} (ha : s.txe.array = .halted h) :
    let b := h.restNoticed || (interlockOpen s).dsy.allAtRest
    takeAtRest (interlockResponse s) = { interlockOpen s with
      txe := { s.txe with array := .halted { h with restNoticed := b }, armed := none }
      cmu := (interlockOpen s).cmu.enterAll (if b = true ∧ h.restNoticed = false then [atRestNotice h s] else []) } := by
  intro b
  have hresponse : interlockResponse s = interlockOpen s := by
    unfold interlockResponse
    rw [ha]
  rw [hresponse, takeAtRest_halted_eq (s := interlockOpen s) ha]
  by_cases hrest : h.restNoticed = false ∧ (interlockOpen s).dsy.allAtRest = true
  · obtain ⟨hnot, hall⟩ := hrest
    have hb : b = true := by simp only [b, hall, Bool.or_true]
    rw [if_pos ⟨hnot, hall⟩, if_pos ⟨hb, hnot⟩, hb]
    rfl
  · have hb : b = h.restNoticed := by
      cases hn : h.restNoticed <;> simp_all [b]
    rw [if_neg hrest, if_neg (by rw [hb]; simp), hb, ← ha]
    rfl

/-- What an opening leaves in every array state. -/
structure OpenedFrom (s t : State) : Prop where
  dsy   : t.dsy = (interlockOpen s).dsy
  armed : t.txe.armed = none
  seq   : t.txe.seq = s.txe.seq
  frame : t.txe.frame = s.txe.frame
  rif   : t.rif = s.rif
  pst   : t.pst = s.pst
  ldu   : t.ldu = s.ldu
  units : t.ctu.units = s.ctu.units
  history : (∀ c, s.txe.array.context ≠ some c) → t.txe.history = s.txe.history

theorem opening_opened (s : State) : OpenedFrom s (takeAtRest (interlockResponse s)) := by
  rcases s.txe.array.phase_or with ⟨c, hc⟩ | ⟨p, ha⟩ | ha | ha | ⟨r, ha⟩ | ⟨h, ha⟩
  · obtain ⟨_, hv⟩ := haltView_phase hc
    rw [opening_phase hc hv]
    exact ⟨rfl, rfl, rfl, rfl, rfl, rfl, rfl, rfl, fun hn => absurd hc (hn c)⟩
  · rw [opening_muted (opening_active ha)]
    exact ⟨rfl, rfl, rfl, rfl, rfl, rfl, rfl, rfl, fun _ => rfl⟩
  · rw [opening_muted (opening_muting ha)]
    exact ⟨rfl, rfl, rfl, rfl, rfl, rfl, rfl, rfl, fun _ => rfl⟩
  · rw [opening_unset ha]
    exact ⟨rfl, rfl, rfl, rfl, rfl, rfl, rfl, rfl, fun _ => rfl⟩
  · rw [opening_mutedAlready ha]
    exact ⟨rfl, rfl, rfl, rfl, rfl, rfl, rfl, rfl, fun _ => rfl⟩
  · rw [opening_halted ha]
    exact ⟨rfl, rfl, rfl, rfl, rfl, rfl, rfl, rfl, fun _ => rfl⟩

/-- An entry to MUTED or HALTED tells MON and SCU (R108, R132). -/
theorem opening_tells (h : (∃ p, s.txe.array = .active p) ∨ (∃ c, s.txe.array.context = some c) ∨ s.txe.array = .muting) :
    let t := takeAtRest (interlockResponse s)
    t.mon = s.mon.leaveActive ∧ t.scu = { s.scu with deferred := none } := by
  rcases h with ⟨p, ha⟩ | ⟨c, hc⟩ | ha
  · rw [opening_muted (opening_active ha)]
    exact ⟨rfl, rfl⟩
  · obtain ⟨_, hv⟩ := haltView_phase hc
    rw [opening_phase hc hv]
    exact ⟨rfl, rfl⟩
  · rw [opening_muted (opening_muting ha)]
    exact ⟨rfl, rfl⟩

/-- Where the array stays, MON, SCU and CTU do. -/
theorem opening_stays (h : s.txe.array = .unset ∨ (∃ r, s.txe.array = .muted r) ∨ ∃ h, s.txe.array = .halted h) :
    let t := takeAtRest (interlockResponse s)
    t.mon = s.mon ∧ t.scu = s.scu ∧ t.ctu = s.ctu := by
  rcases h with ha | ⟨r, ha⟩ | ⟨h, ha⟩
  · rw [opening_unset ha]
    exact ⟨rfl, rfl, rfl⟩
  · rw [opening_mutedAlready ha]
    exact ⟨rfl, rfl, rfl⟩
  · rw [opening_halted ha]
    exact ⟨rfl, rfl, rfl⟩

/-- The notices of an opening follow INTERLOCK_OPENED and ARMED_WITHDRAWN. -/
theorem interlockOpen_enterAll (s : State) (rs : List Record) : (interlockOpen s).cmu.enterAll rs
    = s.cmu.enterAll ([.notice .interlockOpened s.stamp none none []] ++ withdrawnNotice 7 s ++ rs) :=
  (Cmu.enterAll_append ..).symm

end

theorem ilkLineOpen_alone {s : State} (h : s.running = false ∨ s.dsy.ilkClosed = false) :
    ilkLineOpen s = s.setDsy s.dsy.ilkOpens := if_neg (by rcases h with h | h <;> simp [h])

/-- Settles O34: what an opening does in each array state is `opening_muted`, `opening_phase`, `opening_mutedAlready`,
`opening_unset` and `opening_halted`. -/
theorem interlockFollowsItsLine : Obligations.InterlockFollowsItsLine := by
  refine ⟨fun s => ⟨fun h => congrArg _ (ilkLineOpen_alone h), fun hrun hclosed => ?_⟩,
    fun s => ⟨fun hrun hopen => ?_, fun h => ?_⟩, fun s hcount => ⟨fun h => ?_, fun htimer hopen => ?_⟩⟩
  · have hopened := opening_opened s
    refine ⟨_, exec_interlockOpening hrun hclosed, by rw [hopened.dsy]; rfl, by rw [hopened.dsy]; rfl, by rw [hopened.dsy]; rfl,
      fun k => by rw [hopened.dsy]; exact interlockOpen_tower s k, by rw [hopened.dsy]; rfl, hopened.armed, hopened.seq,
      hopened.frame, hopened.rif, hopened.pst, hopened.ldu, hopened.units, opening_tells, opening_stays, hopened.history,
      fun p ha => ?_, fun c hc => ?_, fun ha => ?_, fun r ha => ?_, fun ha => ?_, fun h ha => ?_⟩
    · rw [opening_muted (opening_active ha)]
      exact ⟨rfl, rfl, rfl, (interlockOpen_enterAll ..).trans (by rw [← List.append_assoc])⟩
    · obtain ⟨step, hv⟩ := haltView_phase hc
      rw [opening_phase hc hv]
      refine ⟨rfl, _, rfl, rfl, rfl, rfl, rfl, rfl, rfl, rfl, rfl, rfl, fun v hv' => ?_, fun r rs hr => ?_, allAtRest_iff _,
        (interlockOpen_enterAll ..).trans (by rw [← List.append_assoc, ← List.append_assoc])⟩
      · obtain rfl : viewOf step c = v := Option.some.inj (hv.symm.trans hv')
        rfl
      · show countHalt s.txe.history = _
        rw [hr]
        rfl
    · rw [opening_muted (opening_muting ha)]
      exact ⟨rfl, rfl, (interlockOpen_enterAll ..).trans (by rw [← List.append_assoc])⟩
    · rw [opening_mutedAlready ha]
      exact ⟨rfl, rfl⟩
    · rw [opening_unset ha]
      exact ⟨ha, rfl⟩
    · rw [opening_halted ha]
      exact ⟨_, rfl, Bool.or_eq_true_iff.trans (or_congr_right (allAtRest_iff _)), interlockOpen_enterAll ..⟩
  · exact congrArg (fun t => Host.Outcome.next (s.setDsy { s.dsy with ilkLine := true, ilkTimer := t }))
      (if_pos (by rw [hrun, hopen]; rfl))
  · exact congrArg (fun t => Host.Outcome.next (s.setDsy { s.dsy with ilkLine := true, ilkTimer := t }))
      (if_neg (by rcases h with h | h <;> simp [h]))
  · show Host.Outcome.next (whileCounting ilkQualified s) = _
    rw [whileCounting, show ilkQualified s = s from if_neg (by rcases h with h | h <;> simp [h]), ite_self]
  · show Host.Outcome.next (whileCounting ilkQualified s) = _
    rw [whileCounting, if_pos (by rw [hcount.1, hcount.2]; rfl)]
    exact congrArg _ (if_pos (by simp [Option.isSome_iff_ne_none, htimer, hopen]))

/-! ## Cabinet READY (R36, R74) -/

theorem Tower.rdyPending_iff (x : Tower) : x.rdyPending = true ↔ x.debounce ≠ none ∧ x.rdyLine ≠ x.ready := by
  simp [Tower.rdyPending, Option.isSome_iff_ne_none]

section
variable {t : TowerIx} {s : State}

/-- With the debounce toward another level running, its end gives the status the line's level and raises the notice. -/
theorem rdyDebounced_pending (hd : s.dsy.towers[t].debounce ≠ none) (hl : s.dsy.towers[t].rdyLine ≠ s.dsy.towers[t].ready) :
    rdyDebounced t s = if s.dsy.towers[t].rdyLine then (s.setDsy (s.dsy.rdySettled t)).raise .cabinetReady (subjectOf t.val) []
      else takeCabinetLoss t ((s.setDsy (s.dsy.rdySettled t)).raise .cabinetFault (subjectOf t.val) []) :=
  if_pos ((Tower.rdyPending_iff _).2 ⟨hd, hl⟩)

theorem rdyDebounced_idle (h : s.dsy.towers[t].debounce = none ∨ s.dsy.towers[t].rdyLine = s.dsy.towers[t].ready) :
    rdyDebounced t s = s := if_neg fun hp => by
  obtain ⟨hd, hl⟩ := (Tower.rdyPending_iff _).1 hp
  exact h.elim hd hl

/-- Outside RAMP_UP, and for a tower outside the target's set, TXE does nothing on a cabinet lost. -/
theorem takeCabinetLoss_outside
    (h : ∀ c e, s.txe.array = .rampUp c e → has (recTowers (s.recordOf c.target)) t = false) : takeCabinetLoss t s = s := by
  unfold takeCabinetLoss
  split
  next c e ha => exact if_neg (by simp [h c e ha])
  all_goals rfl

theorem takeCabinetLoss_rampUp {c : TxContext} {e : TowerSet} (ha : s.txe.array = .rampUp c e)
    (ht : has (recTowers (s.recordOf c.target)) t = true) : takeCabinetLoss t s = halt .cabinet (.tower t) s := by
  unfold takeCabinetLoss
  rw [ha]
  exact if_pos ht

theorem exec_cabinetDebounceExpiry (hcount : Counting s) : exec (.cabinetDebounceExpiry t) s = .next (rdyDebounced t s) :=
  congrArg Host.Outcome.next (if_pos (by rw [hcount.1, hcount.2]; rfl))

theorem debounceStep_eq (level ready : Bool) (d : Option Nat) :
    debounceStep (level != ready) d = if level = ready then none else some (d.getD 0) := by
  cases level <;> cases ready <;> rfl

end

/-- Settles O35: a line changes its own tower alone, and the end of its debounce is `rdyDebounced_pending`. -/
theorem cabinetReadyIsDebounced : Obligations.CabinetReadyIsDebounced := by
  refine ⟨fun t b s => ?_, fun t s hcount => ?_⟩
  · have towers : ∀ f : Tower → Tower, (∀ k : TowerIx, k ≠ t → (modifyAt s.dsy.towers t f)[k] = s.dsy.towers[k])
        ∧ (modifyAt s.dsy.towers t f)[t] = f s.dsy.towers[t] := fun f =>
      ⟨fun k hk => (modifyAt_get ..).trans (if_neg hk), (modifyAt_get ..).trans (if_pos rfl)⟩
    cases hrun : s.running with
    | false =>
      obtain ⟨hothers, ht⟩ := towers fun x => { x with rdyLine := b }
      refine ⟨s.setDsy (s.dsy.rdyLineOnly t b), ?_, rfl, hothers, ht⟩
      rw [exec, execRdyLineChange, hrun]
      rfl
    | true =>
      obtain ⟨hothers, ht⟩ := towers fun x => { x with rdyLine := b, debounce := debounceStep (b != x.ready) x.debounce }
      refine ⟨s.setDsy (s.dsy.rdyLevel t b), ?_, rfl, hothers, ht.trans ?_⟩
      · rw [exec, execRdyLineChange, hrun]
        rfl
      · rw [debounceStep_eq]
        rfl
  · rw [exec_cabinetDebounceExpiry hcount]
    refine ⟨fun h => congrArg _ (rdyDebounced_idle h), fun hd => ⟨fun hline hready => ?_, fun hline hready => ?_⟩⟩
    · rw [rdyDebounced_pending hd (by rw [hline, hready]; decide), if_pos hline]
      rfl
    · rw [rdyDebounced_pending hd (by rw [hline, hready]; decide), if_neg (by rw [hline]; decide)]
      refine ⟨fun c e ha ht => ?_, fun h => congrArg _ (takeCabinetLoss_outside h)⟩
      have hview : haltView ((s.setDsy (s.dsy.rdySettled t)).raise .cabinetFault (subjectOf t.val) [])
          = some (viewOf .rampUp c) := by
        unfold haltView
        rw [State.raise_txe, State.setDsy_txe, ha]
      obtain ⟨b, hb⟩ := halt_array (r := .cabinet) (u := .tower t) hview
      exact ⟨congrArg _ (takeCabinetLoss_rampUp (e := e) ha ht), halt_ctu hview, _, hb, rfl, rfl, rfl, rfl, rfl⟩

end Sys2Proof.Machine
end

section
/-! SUPPORT. Rounding, orders, ramp steps, drive samples and the words of a drive frame, each as the rule states it. -/
namespace Sys2Proof.Machine

/-! ## Rounding and folding (00_scope.md, section 6) -/

theorem roundDiv_bounds (n : Nat) {d : Nat} (hd : 0 < d) :
    2 * d * roundDiv n d ≤ 2 * n + d ∧ 2 * n + d < 2 * d * (roundDiv n d + 1) :=
  ⟨Nat.mul_div_le .., Nat.lt_mul_div_succ _ (by omega)⟩

theorem roundDiv_zero (d : Nat) : roundDiv 0 d = 0 := by
  rcases Nat.eq_zero_or_pos d with rfl | hd
  · rfl
  · exact Nat.div_eq_of_lt (by omega)

theorem roundDiv_mul_self (n : Nat) {d : Nat} (hd : 0 < d) : roundDiv (n * d) d = n := by
  unfold roundDiv
  rw [← Nat.mul_assoc, Nat.mul_right_comm, Nat.mul_add_div (by omega), Nat.div_eq_of_lt (by omega), Nat.add_zero]

theorem roundDivInt_natCast (n d : Nat) : roundDivInt n d = roundDiv n d := if_pos (Int.natCast_nonneg n)

theorem roundDivInt_neg (n d : Nat) : roundDivInt (-(n : Int)) d = -(roundDiv n d : Int) := by
  unfold roundDivInt
  rcases Nat.eq_zero_or_pos n with rfl | hn
  · simp [roundDiv_zero]
  · rw [if_neg (by omega), Int.neg_neg, Int.toNat_natCast]

theorem fold_spec (i : Int) : -18000 < fold i ∧ fold i ≤ 18000 ∧ (fold i - i) % 36000 = 0 := by
  unfold fold
  split <;> omega

/-! ## Orders (R24, R25, R33) -/

theorem TowerOrder.isRest_iff (o : TowerOrder) : o.isRest = true ↔ o = .rest := by
  cases o <;> simp [TowerOrder.isRest]

theorem Dsy.atRest_iff (d : Dsy) (t : TowerIx) :
    d.atRest t = true ↔ d.towers[t].amp = 0 ∧ ∀ r, d.towers[t].order ≠ .ramp r := by
  unfold Dsy.atRest Tower.atRest
  rw [Bool.and_eq_true, beq_iff_eq, Bool.not_eq_true', ← Bool.not_eq_true, TowerOrder.isRamp_iff, not_exists]

theorem orderZero_tower (d : Dsy) (len : Nat) (t : TowerIx) : (d.orderZero len t).towers[t] = { d.towers[t] with
    order := if d.towers[t].amp = 0 ∨ d.localPace = true then .rest else .ramp (zeroRamp d.towers[t] len) } :=
  (modifyAt_get ..).trans (if_pos rfl)

theorem rampDownAll_tower (d : Dsy) (len : Nat) (skip : TowerSet) (t : TowerIx) : (d.rampDownAll len skip).towers[t]
    = if has skip t = true ∨ d.towers[t].order = .rest then d.towers[t] else (d.orderZero len t).towers[t] := by
  rw [(rampDownAll_spec d len skip).2 t, orderZero_tower]
  simp only [TowerOrder.isRest_iff]

theorem orderPattern_off {d : Dsy} (h : d.ilkClosed = false ∨ d.localPace = true) (p : Pst) (k : Slot) (len : Nat)
    (t : TowerIx) : d.orderPattern p k len t = d := if_pos h

theorem orderPattern_on {d : Dsy} (hclosed : d.ilkClosed = true) (hpace : d.localPace = false) (p : Pst) (k : Slot) (len : Nat)
    (t : TowerIx) : d.orderPattern p k len t = { d with
      towers := setAt d.towers t { d.towers[t] with order := .ramp (patternRamp p k t d.towers[t] len) } } :=
  if_neg (by simp [hclosed, hpace])

theorem patternValues_outside {p : Pst} {k : Slot} {t : TowerIx} (h : has (recTowers (p.slotWord k)) t = false) (now : Nat) :
    patternValues p k t now = (0, now) := if_neg (by simp [h])

theorem patternValues_inside {p : Pst} {k : Slot} {t : TowerIx} (h : has (recTowers (p.slotWord k)) t = true) (now : Nat) :
    patternValues p k t now = (scaledAmp (recAmp (p.slotWord k) t) (p.trim k t).amp (recScale (p.slotWord k)),
      trimmedPhase (recPhase (p.slotWord k) t) (p.trim k t).phase) := if_pos h

theorem trimmedPhase_cast (phi : Nat) (tau : Int) : (trimmedPhase phi tau : Int) = ((phi : Int) + tau) % 36000 :=
  Int.toNat_of_nonneg (Int.emod_nonneg _ (by decide))

/-! ## Ramp steps (R26) -/

section
variable {p : Pst} {t : TowerIx} {x : Tower}

theorem advance_rest (h : x.order = .rest) : x.advance p t = ({ x with amp := 0 }, none) := by
  unfold Tower.advance
  rw [h]

theorem advance_follow {k : Slot} (h : x.order = .follow k) : x.advance p t
    = ({ x with amp := (patternValues p k t x.phase).1, phase := (patternValues p k t x.phase).2 }, none) := by
  unfold Tower.advance
  rw [h]

theorem advance_ramp {r : Ramp} (h : x.order = .ramp r) (hstep : r.step + 1 < r.length) : x.advance p t
    = ({ x with amp := r.ampAt (r.step + 1), phase := r.phaseAt (r.step + 1) x.phase,
                order := .ramp { r with step := r.step + 1 } }, none) := by
  unfold Tower.advance
  rw [h]
  exact if_neg (Nat.not_le.2 hstep)

theorem advance_rampEnd {r : Ramp} (h : x.order = .ramp r) (hstep : r.length ≤ r.step + 1) : x.advance p t
    = ({ x with amp := r.endAmp, phase := r.lastPhase x.phase, order := r.target.order }, some r.target) := by
  unfold Tower.advance
  rw [h]
  exact if_pos hstep

end

theorem Ramp.phaseAt_hold {r : Ramp} (h : r.manner = .hold) (k now : Nat) : r.phaseAt k now = now := by
  unfold Ramp.phaseAt
  rw [h]

theorem Ramp.phaseAt_jump {r : Ramp} (h : r.manner = .jump) (k now : Nat) : r.phaseAt k now = r.endPhase := by
  unfold Ramp.phaseAt
  rw [h]

/-- An ARC phase is rounded as one total (log 20). -/
theorem Ramp.phaseAt_arc {r : Ramp} (h : r.manner = .arc) (k now : Nat) : (r.phaseAt k now : Int)
    = roundDivInt ((r.startPhase : Int) * r.length + fold ((r.endPhase : Int) - r.startPhase) * k) r.length % 36000 := by
  unfold Ramp.phaseAt
  rw [h]
  exact Int.toNat_of_nonneg (Int.emod_nonneg _ (by decide))

theorem Ramp.lastPhase_hold {r : Ramp} (h : r.manner = .hold) (now : Nat) : r.lastPhase now = now := by
  unfold Ramp.lastPhase
  rw [h]

theorem Ramp.lastPhase_end {r : Ramp} (h : r.manner ≠ .hold) (now : Nat) : r.lastPhase now = r.endPhase := by
  unfold Ramp.lastPhase
  cases hm : r.manner with
  | hold => exact absurd hm h
  | jump | arc => rfl

/-! ## Records and memory (R1, R7) -/

theorem slotWord_empty {p : Pst} {k : Slot} (h : p.dir[k].region = none) (i : Nat) : p.slotWord k i = 0 := by
  unfold Pst.slotWord
  rw [h]

theorem slotWord_region {p : Pst} {k : Slot} {b l : Nat} (h : p.dir[k].region = some (b, l)) (i : Nat) :
    p.slotWord k i = if i < l then p.store.read (b + i) else 0 := by
  unfold Pst.slotWord
  rw [h]

/-! ## Drive samples and the words of a drive frame (R28, 11.5) -/

theorem word_toNat {n : Nat} (h : n < 65536) : (word n).toNat = n := by
  rw [word, BitVec.toNat_ofNat]
  exact Nat.mod_eq_of_lt h

theorem driveSample_toNat (amp : Nat) (e : Word) : (driveSample amp e).toNat = min 65535 (roundDiv (e.toNat * amp) 32768) :=
  word_toNat (Nat.lt_succ_of_le (Nat.min_le_left ..))

theorem driveSample_zero (e : Word) : driveSample 0 e = 0 := by
  rw [driveSample, rawSample, Nat.mul_zero, roundDiv_zero]
  rfl

/-- The amplitude 32768 is 1: the sample is the envelope. -/
theorem driveSample_unit (e : Word) : driveSample 32768 e = e := by
  apply BitVec.eq_of_toNat_eq
  rw [driveSample_toNat, roundDiv_mul_self _ (by decide)]
  omega

theorem joinWords_twoWords (f : BitVec 32) : joinWords ((twoWords f).getD 0 0) ((twoWords f).getD 1 0) = f := by
  apply BitVec.eq_of_toNat_eq
  rw [joinWords_toNat]
  show (f.extractLsb' 16 16).toNat * 65536 + (f.extractLsb' 0 16).toNat = f.toNat
  rw [BitVec.extractLsb'_toNat, BitVec.extractLsb'_toNat, Nat.shiftRight_eq_div_pow, Nat.shiftRight_eq_div_pow]
  have := f.isLt
  omega

/-- The last word of the head of a drive frame: the state in bits 0 and 1, the limit flag in bit 8 (11.5). -/
theorem stateWord_fields (d : DriveState) (b : Bool) : let w := word (d.code + flagBit b 8)
    field w 0 2 = d.code ∧ field w 2 6 = 0 ∧ w.getLsbD 8 = b ∧ field w 9 7 = 0 := by
  cases d <;> cases b <;> decide

theorem DriveFrame.words_spec (f : DriveFrame) (h : f.phase < 65536) :
    f.words.length = 5 + f.samples.length ∧ f.words.drop 5 = f.samples
    ∧ (let w := fun k => f.words.getD k 0
      joinWords (w 0) (w 1) = f.number ∧ w 2 = f.reference ∧ (w 3).toNat = f.phase
      ∧ (f.state = .idle → field (w 4) 0 2 = 0) ∧ (f.state = .ramping → field (w 4) 0 2 = 1)
      ∧ (f.state = .driven → field (w 4) 0 2 = 2) ∧ field (w 4) 2 6 = 0 ∧ (w 4).getLsbD 8 = f.saturated
      ∧ field (w 4) 9 7 = 0) := by
  obtain ⟨hstate, hlow, hflag, hhigh⟩ := stateWord_fields f.state f.saturated
  refine ⟨(List.length_append ..).trans rfl, rfl, joinWords_twoWords f.number, rfl, word_toNat h, ?_, ?_, ?_, hlow, hflag,
    hhigh⟩
  all_goals
    intro hs
    refine hstate.trans ?_
    rw [hs]
    rfl

/-- Settles O46: each clause is the lemma above that says what the operation does. -/
theorem rampsAdvanceAndSamplesAreScaled : Obligations.RampsAdvanceAndSamplesAreScaled := by
  refine ⟨fun n _ hd => roundDiv_bounds n hd, fun n d => ⟨roundDivInt_natCast n d, roundDivInt_neg n d⟩, fold_spec,
    Dsy.atRest_iff, fun _ _ _ => rfl, fun _ _ => rfl,
    fun d len skip => ⟨(rampDownAll_spec d len skip).1, rampDownAll_tower d len skip⟩,
    fun d p k len t => ⟨fun h => orderPattern_off h p k len t, fun hclosed hpace => ?_⟩,
    fun d x => ⟨rfl, forceZero_tower d x⟩, fun p k t now => ⟨fun h => patternValues_outside h now, fun h a ph hv => ?_⟩,
    fun p t x => ⟨advance_rest, fun _ => advance_follow, fun r hr => ⟨fun hstep => ?_, fun hstep => ?_⟩⟩,
    fun s k => ⟨rfl, fun h => slotWord_empty h, fun _ _ h => slotWord_region h⟩, fun _ _ _ _ => ⟨rfl, rfl⟩, setAt_get,
    fun amp e => ⟨driveSample_toNat amp e, rfl, driveSample_zero e, driveSample_unit e⟩, DriveFrame.words_spec,
    fun x n ref env =>
      ⟨rfl, rfl, rfl, rfl, x.frame_saturated_iff n ref env, x.driveState_ramping_iff, x.driveState_idle_iff⟩⟩
  · exact ⟨_, orderPattern_on hclosed hpace p k len t, rfl, rfl, rfl, rfl, rfl, rfl, rfl, fun h => if_pos h,
      fun h => if_neg h⟩
  · rw [patternValues_inside h, Prod.mk.injEq] at hv
    obtain ⟨rfl, rfl⟩ := hv
    exact ⟨rfl, trimmedPhase_cast ..⟩
  · refine ⟨_, advance_ramp hr hstep, rfl, rfl, fun h => r.phaseAt_hold h .., fun h => r.phaseAt_jump h .., fun h => ?_⟩
    exact_mod_cast r.phaseAt_arc h (r.step + 1) x.phase
  · refine ⟨_, advance_rampEnd hr hstep, rfl, fun h => r.lastPhase_hold h _, fun h => r.lastPhase_end h _, fun h => ?_,
      fun k h => ?_⟩
    · show r.target.order = .rest
      rw [h]
      rfl
    · show r.target.order = .follow k
      rw [h]
      rfl

end Sys2Proof.Machine
end

section
/-! SUPPORT. The operations that give no move request leave every contactor number of CTU alone, said once per operation. -/
namespace Sys2Proof.Machine

/-! ## Operations that move no contactor -/

/-- s stands after operations on o that leave every contactor number of CTU as it is, in a unit that runs as before. -/
structure UnitsKept (o s : State) : Prop where
  running : s.running = o.running
  units   : s.ctu.units = o.ctu.units

namespace UnitsKept

variable {o s t : State}

theorem refl (s : State) : UnitsKept s s := ⟨rfl, rfl⟩

theorem trans {u : State} (h : UnitsKept o s) (k : UnitsKept s u) : UnitsKept o u :=
  ⟨k.running.trans h.running, k.units.trans h.units⟩

theorem keeps (h : UnitsKept o s) (hr : t.running = s.running) (hu : t.ctu.units = s.ctu.units) : UnitsKept o t :=
  h.trans ⟨hr, hu⟩

theorem ite {p : Prop} [Decidable p] (h : UnitsKept o s) (k : UnitsKept o t) : UnitsKept o (if p then s else t) := by
  split
  · exact h
  · exact k

/-- A list of operations that each move no contactor. -/
theorem foldl {α : Type} {f : State → α → State} (hf : ∀ s a, UnitsKept o s → UnitsKept o (f s a)) (l : List α)
    (h : UnitsKept o s) : UnitsKept o (l.foldl f s) := by
  induction l generalizing s with
  | nil => exact h
  | cons a l ih => exact ih (hf s a h)

/-! ### Updates of a block -/

theorem setRif (h : UnitsKept o s) (b : Rif) : UnitsKept o (s.setRif b) := h.keeps rfl rfl
theorem setCmu (h : UnitsKept o s) (b : Cmu) : UnitsKept o (s.setCmu b) := h.keeps rfl rfl
theorem setPst (h : UnitsKept o s) (b : Pst) : UnitsKept o (s.setPst b) := h.keeps rfl rfl
theorem setLdu (h : UnitsKept o s) (b : Ldu) : UnitsKept o (s.setLdu b) := h.keeps rfl rfl
theorem setTxe (h : UnitsKept o s) (b : Txe) : UnitsKept o (s.setTxe b) := h.keeps rfl rfl
theorem setDsy (h : UnitsKept o s) (b : Dsy) : UnitsKept o (s.setDsy b) := h.keeps rfl rfl
theorem setMon (h : UnitsKept o s) (b : Mon) : UnitsKept o (s.setMon b) := h.keeps rfl rfl
theorem setScu (h : UnitsKept o s) (b : Scu) : UnitsKept o (s.setScu b) := h.keeps rfl rfl
theorem setArray (h : UnitsKept o s) (a : ArrayState) : UnitsKept o (s.setArray a) := h.setTxe _
theorem setArmed (h : UnitsKept o s) (a : Option Armed) : UnitsKept o (s.setArmed a) := h.setTxe _
theorem setClaim (h : UnitsKept o s) (x : Target) (c : Option Claim) : UnitsKept o (s.setClaim x c) := h.setLdu _
theorem setGuard (h : UnitsKept o s) (g : Option Slot) : UnitsKept o (setGuard g s) := h.keeps rfl rfl
theorem enter (h : UnitsKept o s) (r : Record) : UnitsKept o (s.enter r) := h.setCmu _
theorem closeRecord (h : UnitsKept o s) (x : HistOutcome) (f : FrameNum) : UnitsKept o (closeRecord x f s) := h.setTxe _

theorem raise (h : UnitsKept o s) (k : NoticeKind) (b : Option (BitVec 8)) (d : List Word) : UnitsKept o (s.raise k b d) :=
  h.enter _

/-! ### Requests and reports -/

theorem withdraw (h : UnitsKept o s) (r : WithdrawReason) : UnitsKept o (withdraw r s) := by
  rw [withdraw_eq]
  exact (h.setTxe _).setCmu _

theorem request (h : UnitsKept o s) (k : Slot) (m : ReqMode) (f : Option FrameNum) (c : Cause) :
    UnitsKept o (request k m f c s).1 := by
  unfold Machine.request
  split
  · split
    · exact h
    · split
      · exact h.setArmed _
      · exact h
  all_goals exact h

theorem raiseDue (h : UnitsKept o s) (x : Occurrence) (a : DueOutcome) (r : DueReason) (f : Option FrameNum) :
    UnitsKept o (raiseDue x a r f s) := h.raise ..

theorem defer (h : UnitsKept o s) (x : Occurrence) : UnitsKept o (defer x s) := by
  unfold Machine.defer
  split
  · split
    · exact h.setScu _
    · exact (h.raiseDue ..).setScu _
  · exact h.setScu _

theorem settleDue (h : UnitsKept o s) (x : Occurrence) (a : ReqAnswer) : UnitsKept o (settleDue x a s) := by
  have h1 : UnitsKept o (if (dueOf a).1 = .deferred then Machine.defer x s else s) := ite (h.defer x) h
  exact (ite (h1.setScu _) h1).raiseDue ..

theorem actOn (h : UnitsKept o s) (x : Occurrence) (f : Option FrameNum) : UnitsKept o (actOn x f s) := by
  unfold Machine.actOn
  split
  · exact h
  · exact (h.request ..).settleDue ..

theorem tellActive (h : UnitsKept o s) (p : Slot) : UnitsKept o (tellActive p s) := by
  unfold Machine.tellActive offerDeferred
  split
  · exact h.setMon _
  · exact ((h.setMon _).setScu _).actOn ..

/-! ### Transitions -/

theorem noteAtRest (h : UnitsKept o s) (c : HaltContext) : UnitsKept o (noteAtRest c s) := (h.setArray _).raise ..

theorem halt (h : UnitsKept o s) (r : HaltReason) (u : HaltSubject) : UnitsKept o (halt r u s) := by
  cases hv : haltView s with
  | none =>
    rw [show Machine.halt r u s = s by unfold Machine.halt; rw [hv]]
    exact h
  | some v => exact h.keeps (halt_keeps ..).running (by rw [halt_ctu hv])

theorem takeDrift (h : UnitsKept o s) (c : ContactorIx) : UnitsKept o (takeDrift c s) := ite ((h.setDsy _).halt ..) h

theorem startRampUp (h : UnitsKept o s) (c : TxContext) : UnitsKept o (startRampUp c s) := by
  unfold Machine.startRampUp
  split
  · exact (h.setArray _).halt ..
  · exact (h.setArray _).setDsy _

theorem enterReadyUp (h : UnitsKept o s) (c : TxContext) (g : Nat) : UnitsKept o (enterReadyUp c g s) := (h.setArray _).raise ..

theorem afterSettle (h : UnitsKept o s) (c : TxContext) : UnitsKept o (afterSettle c s) := by
  unfold Machine.afterSettle
  split
  · exact h.enterReadyUp ..
  · exact h.startRampUp c

theorem enterSettle (h : UnitsKept o s) (c : TxContext) : UnitsKept o (enterSettle c s) :=
  ite ((h.setArray _).afterSettle c) (h.setArray _)

theorem leaveSwitching (h : UnitsKept o s) (c : TxContext) : UnitsKept o (leaveSwitching c s) :=
  foldl (fun _ k hs => hs.takeDrift k) _ (ite ((h.setGuard _).enterSettle c) ((h.setGuard _).afterSettle c))

theorem judgeSwitching (h : UnitsKept o s) : UnitsKept o (judgeSwitching s) := by
  unfold Machine.judgeSwitching
  split
  · exact ite (h.leaveSwitching _) h
  all_goals exact h

theorem complete (h : UnitsKept o s) (c : TxContext) : UnitsKept o (complete c s) := by
  have h1 := ((h.setArray (.active c.target)).closeRecord .completed s.txe.now).setDsy
    (Machine.closeRecord .completed s.txe.now (s.setArray (.active c.target))).dsy.clearClips
  refine UnitsKept.tellActive ?_ _
  unfold raiseCompleted
  split
  · exact h1
  · exact h1.enter _

theorem takeRampEnds (h : UnitsKept o s) (l : List (TowerIx × RampEnd)) : UnitsKept o (takeRampEnds l s) := by
  unfold Machine.takeRampEnds
  split
  · exact ite (h.complete _) (h.setArray _)
  all_goals exact h

theorem enterMuted (h : UnitsKept o s) (x : MutedCause) (r : Option Slot) : UnitsKept o (enterMuted x r s) := by
  rw [enterMuted_eq]
  exact (((h.setTxe _).setMon _).setScu _).setCmu _

/-- At-rest changes outside RAMP_DOWN: TXE enters MUTED, or notes that its halt has come to rest (R88, R98). -/
theorem takeAtRest (h : UnitsKept o s) (ha : ∀ c, s.txe.array ≠ .rampDown c) : UnitsKept o (takeAtRest s) := by
  unfold Machine.takeAtRest
  split
  next hc => exact absurd hc (ha _)
  next => exact ite (h.enterMuted ..) h
  next => exact ite (h.noteAtRest _) h
  all_goals exact h

theorem writeFrames (h : UnitsKept o s) (f : FrameSource) : UnitsKept o (writeFrames f s) := by
  rw [writeFrames_eq]
  exact (h.setDsy _).setCmu _

/-! ### Reports, losses and mutes -/

theorem unawait (h : UnitsKept o s) (k : ContactorIx) : UnitsKept o (unawait k s) := by
  unfold Machine.unawait
  split
  · exact h.setArray _
  all_goals exact h

theorem takeReport (h : UnitsKept o s) (k : ContactorIx) (r : CtuReport) : UnitsKept o (takeReport k r s) := by
  cases r with
  | nothing => exact h
  | confirmed | agree => exact (h.unawait k).judgeSwitching
  | disagree drift => exact ite (h.takeDrift k) h.judgeSwitching

theorem takeStuck (h : UnitsKept o s) (k : ContactorIx) : UnitsKept o (takeStuck k s) := by
  unfold Machine.takeStuck
  split
  · exact h.halt ..
  all_goals exact h

theorem takeCabinetLoss (h : UnitsKept o s) (t : TowerIx) : UnitsKept o (takeCabinetLoss t s) := by
  unfold Machine.takeCabinetLoss
  split
  · exact ite (h.halt ..) h
  all_goals exact h

theorem takeLost (h : UnitsKept o s) : UnitsKept o (takeLost s) := by
  unfold Machine.takeLost
  cases s.txe.array with
  | active => exact ((h.withdraw _).setGuard none).enterMuted ..
  | muting => exact h.enterMuted ..
  | unset | muted | halted => exact h
  | rampDown | switching | settle | readyUp | rampUp => exact h.halt ..

theorem interlockResponse (h : UnitsKept o s) : UnitsKept o (interlockResponse s) := by
  have h1 : UnitsKept o (interlockOpen s) := h.keeps rfl rfl
  unfold Machine.interlockResponse
  cases s.txe.array with
  | active => exact (h1.setGuard none).enterMuted ..
  | muting => exact h1.enterMuted ..
  | muted => exact h1.setArray _
  | unset | halted => exact h1
  | rampDown | switching | settle | readyUp | rampUp => exact h1.halt ..

theorem muteTowers (h : UnitsKept o s) (len : Nat) : UnitsKept o (muteTowers len s) := by
  have h1 := h.setDsy (s.dsy.rampDownAll len 0)
  unfold Machine.muteTowers
  dsimp only
  split
  · exact h1.enterMuted ..
  · exact (h1.setArray _).setMon _

theorem muteArray (h : UnitsKept o s) (len : Nat) : UnitsKept o (muteArray len s) := by
  have h1 := h.closeRecord .muted s.txe.now
  unfold Machine.muteArray
  cases s.txe.array with
  | unset | muting => exact h
  | muted => exact h.setArray _
  | active => exact (h.setGuard none).muteTowers len
  | halted => exact h1.muteTowers len
  | rampDown | switching | settle | readyUp | rampUp => exact (h1.setGuard none).muteTowers len

/-! ### Schedule and monitor -/

theorem takeOccurrence (h : UnitsKept o s) (x : Occurrence) : UnitsKept o (takeOccurrence x s) := by
  unfold Machine.takeOccurrence
  split
  · unfold holdDue
    split
    · exact ((h.raiseDue ..).setScu _).raiseDue ..
    · exact (h.setScu _).raiseDue ..
  · exact h.actOn ..

theorem fallDue (h : UnitsKept o s) (os : List Occurrence) : UnitsKept o (fallDue os s) := by
  induction os generalizing s with
  | nil => exact h
  | cons x xs ih =>
    cases xs with
    | nil => exact h.takeOccurrence x
    | cons y ys => exact ih (h.raiseDue ..)

theorem crossClock (h : UnitsKept o s) (d0 : Date) (t0 n : Nat) (d1 : Date) (t1 : Nat) :
    UnitsKept o (crossClock d0 t0 n d1 t1 s) := by
  have h1 := h.setScu (s.scu.setClock d1 t1)
  have h2 := ite (p := n = 2) (h1.raise .clockSet none (twoWords (timestamp d1 t1) ++ [word n])) h1
  exact ite h2 (ite (h2.fallDue _) (h1.raise ..))

theorem takeTime (h : UnitsKept o s) (b : TimeBody) : UnitsKept o (takeTime b s) := by
  unfold Machine.takeTime
  split
  · split
    · exact (h.setScu _).raise ..
    · exact h.crossClock ..
    · exact h.crossClock ..
  · exact h.raise ..

theorem holdOn (h : UnitsKept o s) : UnitsKept o (holdOn s) := by
  unfold Machine.holdOn
  split
  · exact h
  · split
    · exact h.setScu _
    · exact (h.setScu _).raiseDue ..

theorem holdOff (h : UnitsKept o s) (b : Bool) : UnitsKept o (holdOff b s) := by
  unfold Machine.holdOff
  split
  · split
    · exact h.setScu _
    · exact ite ((h.setScu _).actOn ..) ((h.setScu _).raiseDue ..)
  · exact h

theorem staleExpiry (h : UnitsKept o s) : UnitsKept o (staleExpiry s) := by
  unfold Machine.staleExpiry
  split
  · exact (h.setScu _).raise ..
  all_goals exact h

theorem replaceSchedule (h : UnitsKept o s) (w : Nat → Word) : UnitsKept o (replaceSchedule w s) := by
  have discard : ∀ (x : Option Occurrence) {u : State}, UnitsKept o u → UnitsKept o (discardForTable x u) := by
    intro x u hu
    cases x with
    | none => exact hu
    | some d => exact hu.raiseDue d .missed .table none
  exact (discard _ (discard _ h)).setScu _

theorem takeFaultAction (h : UnitsKept o s) (w : Nat → Word) : UnitsKept o (takeFaultAction w s).1 := by
  unfold Machine.takeFaultAction
  split
  · exact h
  · split
    · exact h
    · exact (h.request ..).setMon _

theorem setStatus (h : UnitsKept o s) (t : TowerIx) (x : Tolerance) (n : Nat) : UnitsKept o (setStatus t x n s) := h.setMon _

theorem judgeTower (h : UnitsKept o s) (w : Nat → Word) (t : TowerIx) (r : Nat) (m : Int) (q : BitVec 8) :
    UnitsKept o (judgeTower w t r m q s) := by
  unfold Machine.judgeTower
  dsimp only
  refine ite (ite ?_ ?_) (ite h (ite ?_ ?_))
  · exact (h.setStatus ..).raise ..
  · exact h.setStatus ..
  · exact ((h.setStatus ..).takeFaultAction w).raise ..
  · exact h.setStatus ..

theorem noticeLimit (h : UnitsKept o s) (w : Nat → Word) (k : Slot) (t : TowerIx) (a b : Int) :
    UnitsKept o (noticeLimit w k t a b s) := by
  unfold Machine.noticeLimit
  split
  · exact h
  · exact ite h ((h.setMon _).raise ..)

theorem evaluateTower (h : UnitsKept o s) (w : Nat → Word) (k : Slot) (rec : MonRecord) (t : TowerIx) :
    UnitsKept o (evaluateTower w k rec s t) := by
  have h1 := h.judgeTower w t (measuredRatio rec (referenceChannel w) t) (measuredPhase rec (referenceChannel w) t) rec.seq
  exact ite (ite h1 ((h1.noticeLimit ..).setPst _)) h

theorem evaluate (h : UnitsKept o s) (rec : MonRecord) : UnitsKept o (evaluate rec s) := by
  unfold Machine.evaluate
  split
  · exact h
  · exact ite (foldl (fun _ t hs => hs.evaluateTower _ _ rec t) _ h) h

theorem takeRecord (h : UnitsKept o s) (rx : Rx) : UnitsKept o (takeRecord rx s) := by
  have taken : ∀ rec : MonRecord, UnitsKept o (recordTaken rec s) := fun rec => ite (h.setMon _) ((h.setMon _).raise ..)
  unfold Machine.takeRecord
  split
  · exact h
  · exact ite (taken _) ((taken _).evaluate _)

/-! ### Pins and timers -/

/-- A phase that halts is not left in RAMP_DOWN. -/
theorem halt_array_ne {c d : TxContext} (hd : s.txe.array.context = some d) (r : HaltReason) (u : HaltSubject) :
    (Machine.halt r u s).txe.array ≠ .rampDown c := by
  obtain ⟨v, hv⟩ := haltView_phase hd
  obtain ⟨b, hb⟩ := halt_array (r := r) (u := u) hv
  rw [hb]
  exact ArrayState.noConfusion

theorem enterMuted_array_ne (c : TxContext) (x : MutedCause) (r : Option Slot) (s : State) :
    (Machine.enterMuted x r s).txe.array ≠ .rampDown c := by
  rw [enterMuted_eq]
  exact ArrayState.noConfusion

/-- A loss leaves no RAMP_DOWN for its at-rest changes to leave (R100). -/
theorem takeLost_array_ne (s : State) (c : TxContext) : (Machine.takeLost s).txe.array ≠ .rampDown c := by
  unfold Machine.takeLost
  cases ha : s.txe.array with
  | active | muting => exact enterMuted_array_ne _ _ _ _
  | unset | muted | halted => exact ne_of_eq_of_ne ha ArrayState.noConfusion
  | rampDown d | switching d | settle d | readyUp d | rampUp d => exact halt_array_ne (d := d) (congrArg ArrayState.context ha) _ _

theorem lossExpiry (h : UnitsKept o s) : UnitsKept o (lossExpiry s) :=
  ite h (takeAtRest ((((h.setRif _).setDsy _).takeLost.raise ..).setRif _) (takeLost_array_ne _))

/-- Nor does an opening (R103). -/
theorem interlockResponse_array_ne (s : State) (c : TxContext) : (Machine.interlockResponse s).txe.array ≠ .rampDown c := by
  unfold Machine.interlockResponse
  cases ha : s.txe.array with
  | active | muting => exact enterMuted_array_ne _ _ _ _
  | muted => exact ArrayState.noConfusion
  | unset | halted => exact ne_of_eq_of_ne ha ArrayState.noConfusion
  | rampDown d | switching d | settle d | readyUp d | rampUp d =>
    exact halt_array_ne (s := interlockOpen s) (d := d) (congrArg ArrayState.context ha) _ _

theorem ilkLineOpen (h : UnitsKept o s) : UnitsKept o (ilkLineOpen s) := by
  refine h.trans ?_
  cases hcase : s.running && s.dsy.ilkClosed with
  | false =>
    rw [show Machine.ilkLineOpen s = s.setDsy s.dsy.ilkOpens from if_neg (by simp [hcase])]
    exact (refl s).setDsy _
  | true =>
    rw [Bool.and_eq_true] at hcase
    have heq := exec_interlockOpening hcase.1 hcase.2
    rw [show Machine.ilkLineOpen s = Machine.takeAtRest (Machine.interlockResponse s) from Host.Outcome.next.inj heq]
    exact ((refl s).interlockResponse).takeAtRest (interlockResponse_array_ne s)

theorem ilkQualified (h : UnitsKept o s) : UnitsKept o (ilkQualified s) := ite ((h.setDsy _).raise ..) h

theorem rdyDebounced (h : UnitsKept o s) (t : TowerIx) : UnitsKept o (rdyDebounced t s) :=
  ite (ite ((h.setDsy _).raise ..) (((h.setDsy _).raise ..).takeCabinetLoss t)) h

theorem settleExpired (h : UnitsKept o s) : UnitsKept o (settleExpired s) := by
  unfold Machine.settleExpired
  split
  · exact h.afterSettle _
  all_goals exact h

theorem gateExpired (h : UnitsKept o s) : UnitsKept o (gateExpired s) := by
  unfold Machine.gateExpired
  split
  · exact h.halt ..
  all_goals exact h

theorem absenceExpiry (h : UnitsKept o s) : UnitsKept o (absenceExpiry s) := ite ((h.setMon _).raise ..) h

/-! ### Loading -/

theorem onSlot (h : UnitsKept o s) (x : Target) (f : Pst → Slot → Pst) : UnitsKept o (onSlot x f s) := by
  unfold Machine.onSlot
  split
  · exact h.setPst _
  · exact h

theorem claimBody (h : UnitsKept o s) (m : Mgmt) : UnitsKept o (claimBody m s).1 := by
  unfold Machine.claimBody
  split
  · exact h
  · refine setClaim ?_ _ _
    unfold claimRegion
    split
    · exact (h.setLdu _).setPst _
    · exact (h.setLdu _).setLdu _

theorem writeSegment (h : UnitsKept o s) {x : Target} {a : Nat} {ws : List Word} (hw : writeSegment x a ws s = .ok t) :
    UnitsKept o t := by
  unfold Machine.writeSegment at hw
  split at hw
  · split at hw
    · cases hw; exact h.setPst _
    · cases hw
  · cases hw; exact h.setLdu _

theorem appendWords (x : Target) (n : Nat) (ws : List Word) {r : LoadRun} (h : UnitsKept o r.state) :
    UnitsKept o (appendWords x n ws r).state := by
  induction ws generalizing r with
  | nil => exact h
  | cons w ws ih =>
    unfold Machine.appendWords
    split
    · split
      next hw => exact ih (r := ⟨_, _, _, _, _, _⟩) (h.writeSegment hw)
      next => exact h
    · exact ih (r := { r with held := r.held ++ [w] }) h

theorem loadBody (h : UnitsKept o s) (m : Mgmt) : UnitsKept o (loadBody m s).1 := by
  unfold Machine.loadBody
  split
  · exact h
  · split
    · exact h
    · exact ((appendWords _ _ _ h).setLdu _).setClaim ..

theorem flush_ok (h : UnitsKept o s) {x : Target} {c d : Claim} {b : Bool} (hf : flush x c s = .ok (t, d, b)) :
    UnitsKept o t := by
  unfold flush at hf
  split at hf
  · cases hf; exact h
  · split at hf
    next hw => cases hf; exact (h.writeSegment hw).setLdu _
    next => cases hf

theorem flush_error (h : UnitsKept o s) {x : Target} {c : Claim} {r : State × Answer} (hf : flush x c s = .error r) :
    UnitsKept o r.1 := by
  unfold flush at hf
  split at hf
  · cases hf
  · split at hf
    · cases hf
    · cases hf; exact (h.setLdu _).setClaim ..

theorem commitBody (h : UnitsKept o s) (m : Mgmt) : UnitsKept o (commitBody m s).1 := by
  unfold Machine.commitBody
  split
  · exact h
  · split
    · exact h
    · unfold takeCommit
      split
      · exact h.flush_error ‹_›
      · exact (h.flush_ok ‹_›).setClaim ..

theorem finishBody (h : UnitsKept o s) (m : Mgmt) : UnitsKept o (finishBody m s).1 := by
  unfold Machine.finishBody
  split
  · exact h
  · split
    · exact h
    · unfold takeFinish
      split
      · exact h.flush_error ‹_›
      · exact ((h.flush_ok ‹_›).onSlot ..).setClaim ..

theorem abandon (h : UnitsKept o s) (x : Target) : UnitsKept o (abandon x s) := ((h.setLdu _).onSlot ..).setClaim ..

theorem unclaimBody (h : UnitsKept o s) (m : Mgmt) : UnitsKept o (unclaimBody m s).1 := by
  unfold Machine.unclaimBody
  split
  · exact h
  · exact h.abandon _

theorem lapse (h : UnitsKept o s) (x : Target) : UnitsKept o (lapse x s) := by
  unfold Machine.lapse
  split
  · exact h
  · exact ite h ((h.abandon x).raise ..)

/-! ### Commands and message frames -/

theorem switchBody (h : UnitsKept o s) (m : Mgmt) : UnitsKept o (switchBody m s).1 := by
  unfold Machine.switchBody
  dsimp only
  split
  · exact h
  · split
    · exact h
    · split
      · exact h
      · have h1 := (h.withdraw .replaced).setArmed (some (armedOf (switchParams m) ‹_›))
        unfold arm
        dsimp only
        split
        · exact h1.setArray _
        all_goals exact h1

theorem withdrawBody (h : UnitsKept o s) (m : Mgmt) : UnitsKept o (withdrawBody m s).1 := by
  unfold Machine.withdrawBody
  split
  · exact h
  · exact h.setArmed none

theorem goBody (h : UnitsKept o s) (m : Mgmt) : UnitsKept o (goBody m s).1 := by
  unfold Machine.goBody
  split
  · split
    · exact h
    · exact h.setArray _
  all_goals exact h

theorem trimClearBody (h : UnitsKept o s) (m : Mgmt) : UnitsKept o (trimClearBody m s).1 :=
  ite ((h.setPst _).setMon _) (h.setPst _)

theorem scheduleHoldBody (h : UnitsKept o s) (m : Mgmt) : UnitsKept o (scheduleHoldBody m s).1 := by
  unfold Machine.scheduleHoldBody
  split
  · exact h.holdOn
  · exact h.holdOff _

theorem receiveMgmt (h : UnitsKept o s) (rx : Rx) : UnitsKept o (receiveMgmt rx s) := by
  have h1 : UnitsKept o (passMessage rx s) := h.setRif _
  unfold Machine.receiveMgmt
  split
  · exact ite (ite (h1.setCmu _) (h1.enter _)) h1
  · exact h1

theorem receiveTime (h : UnitsKept o s) (rx : Rx) : UnitsKept o (receiveTime rx s) := by
  have h1 : UnitsKept o (passMessage rx s) := h.setRif _
  unfold Machine.receiveTime
  split
  · exact ite (h1.takeTime _) h1
  · exact h1

theorem receiveRelease (h : UnitsKept o s) (rx : Rx) : UnitsKept o (receiveRelease rx s) := by
  have h1 : UnitsKept o (passMessage rx s) := h.setRif _
  exact ite (ite (ite ((h1.setRif _).setCmu _) h1) ((h1.setRif _).raise ..)) h1

theorem receiveEmpty (h : UnitsKept o s) (rx : Rx) : UnitsKept o (receiveEmpty rx s) := by
  have h1 : UnitsKept o (passMessage rx s) := h.setRif _
  exact ite (h1.setRif _) h1

end UnitsKept
end Sys2Proof.Machine
end

section
/-! SUPPORT. What every command does to the contactors: which stay, which move, and that a move takes the towers of its contactor
at rest; the law of the contactors (R42). -/
namespace Sys2Proof.Machine

/-! ## Contactors that move (R42, R44) -/

/-- f is the entry e after moves: of the same association, lawful with its reading q if e is with r, and commanded to another
position only where the towers of its association stand still (R44). -/
structure Contactor.Moved (still : TowerIx → Prop) (e : Contactor) (r : Reading) (f : Contactor) (q : Reading) : Prop where
  assoc  : f.assoc = e.assoc
  lawful : e.lawful r = true → f.lawful q = true
  still  : f.commanded ≠ e.commanded → ∀ t : TowerIx, has e.assoc.towers t = true → still t

/-- v is the contactor number u after moves: undefined if u is, and else with an entry that has moved. -/
structure ContactorUnit.Moved (still : TowerIx → Prop) (u v : ContactorUnit) : Prop where
  undefined : u.entry = none → v.entry = none
  defined   : ∀ e, u.entry = some e → ∃ f, v.entry = some f ∧ e.Moved still u.reading f v.reading

/-- s stands after operations on o that move contactors at most, each with the towers of its association still. -/
structure Moves (still : TowerIx → Prop) (o s : State) : Prop where
  running : s.running = o.running
  unit    : ∀ k : ContactorIx, ContactorUnit.Moved still o.ctu.units[k] s.ctu.units[k]

/-- The reading depends on the two debounced levels alone (R41). -/
theorem ContactorUnit.reading_congr {u v : ContactorUnit} (ho : v.openShown = u.openShown) (hc : v.closedShown = u.closedShown) :
    v.reading = u.reading := by
  unfold ContactorUnit.reading
  rw [ho, hc]

section
variable {still : TowerIx → Prop}

/-- An entry that keeps its association and commanded position has moved whatever stands still. -/
theorem Contactor.Moved.stays {e f : Contactor} {r q : Reading} (ha : f.assoc = e.assoc) (hp : f.commanded = e.commanded)
    (hl : e.lawful r = true → f.lawful q = true) : e.Moved still r f q := ⟨ha, hl, fun h => absurd hp h⟩

theorem Contactor.Moved.trans {e f g : Contactor} {r q p : Reading} (h : e.Moved still r f q) (k : f.Moved still q g p) :
    e.Moved still r g p := by
  refine ⟨k.assoc.trans h.assoc, fun he => k.lawful (h.lawful he), fun hne t ht => ?_⟩
  by_cases hf : f.commanded = e.commanded
  · exact k.still (by rwa [hf]) t (by rwa [h.assoc])
  · exact h.still hf t ht

/-- A contactor number whose entry and reading stay. -/
theorem ContactorUnit.Moved.same {u v : ContactorUnit} (he : v.entry = u.entry) (hr : v.reading = u.reading) :
    ContactorUnit.Moved still u v :=
  ⟨fun h => he.trans h, fun e h => ⟨e, he.trans h, .stays rfl rfl fun hl => by rwa [hr]⟩⟩

theorem ContactorUnit.Moved.refl (u : ContactorUnit) : ContactorUnit.Moved still u u := .same rfl rfl

theorem ContactorUnit.Moved.trans {u v w : ContactorUnit} (h : u.Moved still v) (k : v.Moved still w) : u.Moved still w := by
  refine ⟨fun hu => k.undefined (h.undefined hu), fun e he => ?_⟩
  obtain ⟨f, hf, hef⟩ := h.defined e he
  obtain ⟨g, hg, hfg⟩ := k.defined f hf
  exact ⟨g, hg, hef.trans hfg⟩
end

theorem ContactorUnit.auxLevel_moved {still : TowerIx → Prop} (u : ContactorUnit) (i : AuxInput) (b : Bool) :
    u.Moved still (u.auxLevel i b) := by
  cases i <;> exact .same rfl rfl

theorem ContactorUnit.auxLineOnly_moved {still : TowerIx → Prop} (u : ContactorUnit) (i : AuxInput) (b : Bool) :
    u.Moved still (u.auxLineOnly i b) := by
  cases i <;> exact .same rfl rfl

/-- A millisecond changes a travel time at most. -/
theorem ContactorUnit.tick_moved {still : TowerIx → Prop} (u : ContactorUnit) : u.Moved still u.tick := by
  refine ⟨fun h => ?_, fun e h => ⟨{ e with state := e.state.tick }, ?_, .stays rfl rfl ?_⟩⟩
  · rw [ContactorUnit.tick, h]
    rfl
  · rw [ContactorUnit.tick, h]
    rfl
  · rw [show u.tick.reading = u.reading from rfl]
    unfold Contactor.lawful
    cases e.state <;> exact id

/-! ### What a lawful state says (R42) -/

theorem lawful_standing {r : Reading} {e : Contactor} (h : e.state = standing e.commanded) (hr : r.agrees e.commanded = true) :
    e.lawful r = true := by
  unfold Contactor.lawful
  rw [h]
  cases hp : e.commanded <;> rw [hp] at hr <;> exact hr

theorem lawful_travel {r : Reading} {e : Contactor} (h : e.state = travelFrom e.commanded) (hr : r.agrees e.commanded = false) :
    e.lawful r = true := by
  unfold Contactor.lawful
  rw [h]
  cases hp : e.commanded <;> rw [hp] at hr <;> simp [travelFrom, hr]

theorem lawful_stuck {r : Reading} {e : Contactor} (h : e.state = .stuck) : e.lawful r = true := by
  unfold Contactor.lawful
  rw [h]

theorem lawful_disagree {r : Reading} {e : Contactor} (h : e.state = .disagree) (hr : r.agrees e.commanded = false) :
    e.lawful r = true := by
  unfold Contactor.lawful
  rw [h]
  simp [hr]

theorem agrees_both (p : Position) : Reading.both.agrees p = false := by cases p <;> rfl

namespace Moves

variable {still : TowerIx → Prop} {o s t : State}

theorem refl (s : State) : Moves still s s := ⟨rfl, fun _ => .refl _⟩

theorem trans (h : Moves still o s) (k : Moves still s t) : Moves still o t :=
  ⟨k.running.trans h.running, fun i => (h.unit i).trans (k.unit i)⟩

theorem ofKept (h : UnitsKept s t) : Moves still s t := ⟨h.running, fun k => by rw [h.units]; exact .refl _⟩

/-- Operations that move no contactor, after others. -/
theorem andKept (h : Moves still o s) (k : UnitsKept s t) : Moves still o t := h.trans (ofKept k)

theorem ite {p : Prop} [Decidable p] (h : Moves still o s) (k : Moves still o t) : Moves still o (if p then s else t) := by
  split
  · exact h
  · exact k

/-- One contactor number changed. -/
theorem ofUnit (c : ContactorIx) (f : ContactorUnit → ContactorUnit) (h : s.ctu.units[c].Moved still (f s.ctu.units[c])) :
    Moves still s (s.onUnit c f) := by
  refine ⟨rfl, fun k => ?_⟩
  show ContactorUnit.Moved still _ (modifyAt s.ctu.units c f)[k]
  rw [modifyAt_get]
  split
  next hk => rw [hk]; exact h
  next => exact .refl _

/-- The entry of a defined contactor replaced. -/
theorem setContactor {c : ContactorIx} {e f : Contactor} (he : s.ctu.units[c].entry = some e)
    (hf : e.Moved still s.ctu.units[c].reading f s.ctu.units[c].reading) : Moves still s (s.setContactor c f) := by
  refine ofUnit c (fun x => { x with entry := some f }) ⟨fun h => (nomatch he.symm.trans h), fun e' he' => ?_⟩
  obtain rfl : e = e' := Option.some.inj (he.symm.trans he')
  exact ⟨f, rfl, hf⟩

/-- The law of the contactors is kept. -/
theorem law (h : Moves still s t) (hs : ContactorLaw s) : ContactorLaw t := by
  intro c f hf
  cases he : s.ctu.units[c].entry with
  | none => cases (h.unit c).undefined he ▸ hf
  | some e =>
    obtain ⟨hrun, hlawful⟩ := hs c e he
    obtain ⟨g, hg, hmoved⟩ := (h.unit c).defined e he
    obtain rfl : g = f := Option.some.inj (hg.symm.trans hf)
    exact ⟨h.running.trans hrun, hmoved.lawful hlawful⟩

/-- A line that changes is that of a defined contactor whose towers stand still (R40, R44). -/
theorem line (h : Moves still s t) {k : ContactorIx} (hk : t.ctu.line k ≠ s.ctu.line k) :
    ∃ e, s.ctu.units[k].entry = some e ∧ ∀ j : TowerIx, has e.assoc.towers j = true → still j := by
  unfold Ctu.line at hk
  cases he : s.ctu.units[k].entry with
  | none => rw [he, (h.unit k).undefined he] at hk; exact absurd rfl hk
  | some e =>
    obtain ⟨f, hf, hmoved⟩ := (h.unit k).defined e he
    rw [he, hf] at hk
    exact ⟨e, rfl, hmoved.still fun hp => hk (congrArg (· == .closed) hp)⟩

/-- Every association names a tower, so with none still no line changes. -/
theorem line_fixed (h : Moves (fun _ => False) s t) (k : ContactorIx) : t.ctu.line k = s.ctu.line k := by
  by_contra hk
  obtain ⟨e, _, hstill⟩ := h.line hk
  cases ha : e.assoc with
  | tower j => exact hstill j ((has_assoc ..).2 (.inl ha))
  | common => exact hstill 0 ((has_assoc ..).2 (.inr ha))

/-! ### Move requests (R43, R44, R70) -/

theorem moveRequest (h : Moves still o s) (hstill : ∀ t : TowerIx, s.dsy.atRest t = true → still t) (c : ContactorIx)
    (p : Position) : Moves still o (moveRequest c p s).1 := by
  refine h.trans ?_
  unfold Machine.moveRequest
  split
  next => exact refl s
  next e he =>
    split
    next => exact refl s
    next =>
      split
      next => exact refl s
      next =>
        split
        next => exact refl s
        next hrest =>
          have hrest : ∀ t : TowerIx, has e.assoc.towers t = true → still t := fun t ht =>
            hstill t ((restIn_iff ..).1 (by simpa using hrest) t ht)
          split
          next hagrees =>
            have lawful := lawful_standing (e := { e with commanded := p, state := standing p }) rfl hagrees
            have moved : Moves still s (s.setContactor c { e with commanded := p, state := standing p }) :=
              setContactor he ⟨rfl, fun _ => lawful, fun _ => hrest⟩
            exact moved.andKept ((UnitsKept.refl _).raise ..)
          next hagrees =>
            have lawful := lawful_travel (e := { e with commanded := p, state := travelFrom p }) rfl (by simpa using hagrees)
            exact setContactor he ⟨rfl, fun _ => lawful, fun _ => hrest⟩

theorem giveMoves (h : Moves still o s) (hstill : ∀ t : TowerIx, s.dsy.atRest t = true → still t)
    (rs : List (ContactorIx × Position)) (c : TxContext) : Moves still o (giveMoves rs c s).2.1 := by
  induction rs generalizing c s with
  | nil => exact h
  | cons r rs ih =>
    have moved := h.moveRequest hstill r.1 r.2
    have hmoved : ∀ t : TowerIx, (Machine.moveRequest r.1 r.2 s).1.dsy.atRest t = true → still t := by
      rw [moveRequest_dsy]; exact hstill
    unfold Machine.giveMoves
    split
    · exact ih h hstill c
    · split
      · exact ih h hstill c
      · split
        · exact ih h hstill _
        · split
          · exact ih moved hmoved _
          · exact ih moved hmoved _
          · exact h
          · exact ih h hstill c

theorem enterSwitching (h : Moves still o s) (hstill : ∀ t : TowerIx, s.dsy.atRest t = true → still t) (c : TxContext) :
    Moves still o (enterSwitching c s) := by
  have moved := h.giveMoves hstill (recRequirements (s.recordOf c.target)) { c with awaited := 0, moved := false }
  have switching := (UnitsKept.refl _).setArray (s := (Machine.giveMoves (recRequirements (s.recordOf c.target))
    { c with awaited := 0, moved := false } s).2.1) (.switching (Machine.giveMoves (recRequirements (s.recordOf c.target))
    { c with awaited := 0, moved := false } s).1)
  unfold Machine.enterSwitching
  dsimp only
  split
  · exact moved.andKept (switching.halt ..)
  · exact moved.andKept switching.judgeSwitching

/-- The orders of RAMP_DOWN put towers at amplitude zero in REST at once, so those stand still here (R25, R68). -/
theorem enterRampDown (h : Moves still o s) (hstill : ∀ t : TowerIx, s.dsy.towers[t].amp = 0 → still t) (c : TxContext) :
    Moves still o (enterRampDown c s) := by
  have orders := h.andKept (((UnitsKept.refl s).setArray (.rampDown c)).setDsy (s.dsy.rampDownAll c.downLen c.blend))
  refine ite (orders.enterSwitching (fun t ht => hstill t ?_) c) orders
  rw [← ((rampDownAll_reordered s.dsy c.downLen c.blend).tower t).amp]
  exact ((Dsy.atRest_iff ..).1 ht).1

theorem launch (h : Moves still o s) (hstill : ∀ t : TowerIx, s.dsy.towers[t].amp = 0 → still t)
    (c : TxContext) (f : FrameNum) : Moves still o (launch c f s) := by
  have opened : UnitsKept s (setGuard none (openRecord c.cause c.source c.target c.mode c.joint.isSome f s)) := ⟨rfl, rfl⟩
  exact ((h.andKept opened).enterRampDown hstill c).andKept (((UnitsKept.refl _).raise ..).setMon _)

/-! ### Frames (R22, R64, R69) -/

theorem takeAtRest (h : Moves still o s) (hstill : ∀ t : TowerIx, s.dsy.atRest t = true → still t) :
    Moves still o (takeAtRest s) := by
  by_cases ha : ∃ c, s.txe.array = .rampDown c
  · obtain ⟨c, ha⟩ := ha
    unfold Machine.takeAtRest
    rw [ha]
    exact ite (h.enterSwitching hstill c) h
  · exact h.andKept ((UnitsKept.refl s).takeAtRest (not_exists.1 ha))

theorem startArmed (h : Moves still o s) (hstill : ∀ t : TowerIx, s.dsy.towers[t].amp = 0 → still t)
    (a : Armed) (f : FrameNum) : Moves still o (startArmed a f s) := by
  unfold Machine.startArmed abandonHalted
  have disarmed := h.andKept ((UnitsKept.refl s).setArmed none)
  split
  · exact (disarmed.andKept ((UnitsKept.refl _).closeRecord ..)).launch hstill _ f
  all_goals exact disarmed.launch hstill _ f

theorem frameEvent (h : Moves still o s) (hstill : ∀ t : TowerIx, s.dsy.towers[t].amp = 0 → still t)
    (n : FrameNum) (b : Bool) : Moves still o (frameEvent n b s) := by
  have numbered := h.andKept ((UnitsKept.refl s).setTxe { s.txe with frame := some n })
  unfold Machine.frameEvent
  dsimp only
  split
  · exact ite (numbered.andKept ((UnitsKept.refl _).withdraw _)) (ite (numbered.startArmed hstill _ n)
      (ite numbered (numbered.andKept ((UnitsKept.refl _).withdraw _))))
  · split
    · exact ite (numbered.andKept ((UnitsKept.refl _).startRampUp _)) (ite numbered
        (numbered.andKept ((UnitsKept.refl _).enterReadyUp ..)))
    all_goals exact numbered

/-- A tower at rest after a set of drive frames shows IDLE at its port (R22, R27). -/
theorem write_idle {d : Dsy} {p : Pst} {f : FrameSource} {k : TowerIx} (h : (d.write p f).atRest k = true) :
    ∃ x, (d.write p f).towers[k].port = some x ∧ x.state = .idle := by
  have hrest := (Dsy.atRest_iff ..).1 h
  rw [write_tower] at hrest ⊢
  refine ⟨_, rfl, (Tower.driveState_idle_iff _).2 ?_⟩
  exact ⟨hrest.2, hrest.1⟩

/-- One frame at the ring pace moves contactors whose towers stand at amplitude zero as it begins, or show IDLE after it. -/
theorem ringFrame (h : Moves still o s) (f : FrameSource) (b : Bool)
    (hbefore : ∀ t : TowerIx, s.dsy.towers[t].amp = 0 → still t)
    (hafter : ∀ (t : TowerIx) d, (Machine.ringFrame f b s).dsy.towers[t].port = some d → d.state = .idle → still t) :
    Moves still o (ringFrame f b s) := by
  have written := (h.frameEvent hbefore f.number b).andKept ((UnitsKept.refl _).writeFrames f)
  refine (written.takeAtRest fun t ht => ?_).andKept ((UnitsKept.refl _).takeRampEnds _)
  rw [writeFrames_dsy] at ht
  obtain ⟨d, hport, hidle⟩ := write_idle ht
  refine hafter t d ?_ hidle
  rw [((ringFrame_ordersOnly f b s).dsy.tower t).port, writeFrames_dsy, hport]

theorem takeRegain (h : Moves still o s) (hstill : ∀ t : TowerIx, s.dsy.towers[t].amp = 0 → still t) :
    Moves still o (takeRegain s) := by
  unfold Machine.takeRegain
  split
  · exact (h.andKept ((UnitsKept.refl s).setArray _)).launch hstill _ _
  all_goals exact h

theorem enterGood (h : Moves still o s) (hstill : ∀ t : TowerIx, s.dsy.towers[t].amp = 0 → still t) :
    Moves still o (enterGood s) := by
  have regained := ((h.andKept ((UnitsKept.refl s).setRif { s.rif with lossSinceGood := false })).takeRegain hstill).andKept
    ((UnitsKept.refl _).raise .ringRegained none [word s.rif.lossCount])
  exact (ite regained h).andKept ((UnitsKept.refl _).setRif _)

end Moves
end Sys2Proof.Machine
end

section
/-! SUPPORT. Debounces, travels, tables and commands as moves of contactors: the law of R42 and the lines of R44. -/
namespace Sys2Proof.Machine

/-! ## Readings and travels (R41, R45 to R48) -/

theorem onUnit_get (s : State) (c k : ContactorIx) (f : ContactorUnit → ContactorUnit) :
    (s.onUnit c f).ctu.units[k] = if k = c then f s.ctu.units[c] else s.ctu.units[k] := modifyAt_get ..

theorem setContactor_get (s : State) (c k : ContactorIx) (e : Contactor) :
    (s.setContactor c e).ctu.units[k] = if k = c then { s.ctu.units[c] with entry := some e } else s.ctu.units[k] :=
  modifyAt_get ..

/-- A contactor given the entry that it has. -/
theorem setContactor_self {s : State} {c : ContactorIx} {e : Contactor} (he : s.ctu.units[c].entry = some e) :
    (s.setContactor c e).ctu.units = s.ctu.units := by
  refine vector_ext fun k => ?_
  rw [setContactor_get]
  split
  next hk => rw [hk, ← he]
  next => rfl

/-- A contactor takes a change of its reading by its state alone: the state x is lawful with the new reading if the one left was
with some reading, and every other number stays. -/
theorem takeReading_state {s : State} {c : ContactorIx} {e : Contactor} (he : s.ctu.units[c].entry = some e) :
    ∃ x, UnitsKept (s.setContactor c { e with state := x }) (takeReading c e s).1
      ∧ ∀ r, e.lawful r = true → { e with state := x }.lawful s.ctu.units[c].reading = true := by
  have stays : UnitsKept (s.setContactor c { e with state := e.state }) s := ⟨rfl, (setContactor_self he).symm⟩
  have standing_ok : s.ctu.units[c].reading.agrees e.commanded = true →
      { e with state := standing e.commanded }.lawful s.ctu.units[c].reading = true :=
    fun hr => lawful_standing (e := { e with state := standing e.commanded }) rfl hr
  have disagree_ok : s.ctu.units[c].reading.agrees e.commanded = false →
      { e with state := .disagree }.lawful s.ctu.units[c].reading = true :=
    fun hr => lawful_disagree (e := { e with state := .disagree }) rfl hr
  have keeps : (∀ r, e.lawful r = true → e.lawful s.ctu.units[c].reading = true) →
      ∃ x, UnitsKept (s.setContactor c { e with state := x }) s
        ∧ ∀ r, e.lawful r = true → { e with state := x }.lawful s.ctu.units[c].reading = true :=
    fun hl => ⟨e.state, stays, hl⟩
  have disagrees : s.ctu.units[c].reading.agrees e.commanded = false →
      ∃ x, UnitsKept (s.setContactor c { e with state := x }) (enterDisagree c e s).1
        ∧ ∀ r, e.lawful r = true → { e with state := x }.lawful s.ctu.units[c].reading = true :=
    fun hr => ⟨.disagree, ⟨rfl, rfl⟩, fun _ _ => disagree_ok hr⟩
  unfold takeReading
  cases hst : e.state with
  | toOpen n | toClosed n =>
    dsimp only
    split
    next hr => exact ⟨_, ⟨rfl, rfl⟩, fun _ _ => standing_ok hr⟩
    next hr =>
      split
      next hboth => exact disagrees (by rw [hboth, agrees_both])
      next =>
        refine keeps fun r h => ?_
        simp only [Contactor.lawful, hst, Bool.and_eq_true] at h ⊢
        exact ⟨h.1, by simpa using hr⟩
  | opened | closed =>
    dsimp only
    split
    next hr =>
      refine keeps fun r h => ?_
      simp only [Contactor.lawful, hst, Bool.and_eq_true] at h ⊢
      exact ⟨h.1, hr⟩
    next hr => exact disagrees (by simpa using hr)
  | stuck =>
    dsimp only
    split
    next hboth => exact disagrees (by rw [hboth, agrees_both])
    next => exact keeps fun _ _ => lawful_stuck hst
  | disagree =>
    dsimp only
    split
    next hr => exact ⟨_, ⟨rfl, rfl⟩, fun _ _ => standing_ok hr⟩
    next hr => exact keeps fun _ _ => lawful_disagree hst (by simpa using hr)

/-! ## The Contactor Table replaced (R53) -/

/-- The derived state of a replaced entry is lawful (R53). -/
theorem replacedEntry_lawful {u : ContactorUnit} {c : ContactorIx} {staged : List StagedContactor} {e : Contactor}
    (h : replacedEntry u c staged = some e) : e.lawful u.reading = true := by
  obtain ⟨x, _, rfl⟩ := Option.map_eq_some_iff.1 h
  by_cases hr : u.reading.agrees (keptPosition u.entry) = true
  · exact lawful_standing (if_pos hr) hr
  · exact lawful_disagree (if_neg hr) (by simpa using hr)

/-- CTU with the table that w stages in the place of its own (R53). -/
def Ctu.replaced (u : Ctu) (w : Nat → Word) : Ctu :=
  { u with units := Vector.ofFn fun c => { u.units[c] with entry := replacedEntry u.units[c] c (stagedContactors w) } }

theorem Ctu.replaced_unit (u : Ctu) (w : Nat → Word) (k : ContactorIx) : (u.replaced w).units[k]
    = { u.units[k] with entry := replacedEntry u.units[k] k (stagedContactors w) } := ofFn_get ..

/-- A replacement raises notices and changes the table (R53). -/
theorem replaceContactors_kept (w : Nat → Word) (s : State) :
    UnitsKept (s.setCtu (s.ctu.replaced w)) (replaceContactors w s) := by
  refine UnitsKept.foldl (fun u c hu => ?_) _ (UnitsKept.refl (s.setCtu (s.ctu.replaced w)))
  split
  · exact UnitsKept.ite (hu.raise ..) hu
  · exact hu

theorem replaceContactors_unit (w : Nat → Word) (s : State) (k : ContactorIx) : (replaceContactors w s).ctu.units[k]
    = { s.ctu.units[k] with entry := replacedEntry s.ctu.units[k] k (stagedContactors w) } := by
  rw [(replaceContactors_kept w s).units]
  exact Ctu.replaced_unit ..

theorem replaceContactors_law (w : Nat → Word) {s : State} (hrun : s.running = true) :
    ContactorLaw (replaceContactors w s) := by
  intro c
  have hunit := replaceContactors_unit w s c
  have hreading : (replaceContactors w s).ctu.units[c].reading = s.ctu.units[c].reading := by
    rw [hunit]
    exact ContactorUnit.reading_congr rfl rfl
  intro e he
  rw [hunit] at he
  refine ⟨(replaceContactors_keeps s w).running.trans hrun, ?_⟩
  rw [hreading]
  exact replacedEntry_lawful he

/-- A table is replaced only with all eight towers at rest (R52, R146). -/
theorem checkOutcome_valid_rest {s : State} {x : Target} {c : Claim} {v : Word} (h : checkOutcome s x c v = .valid)
    (hx : x.val = 16) : s.dsy.allAtRest = true := by
  have hreplaced : replacementOutcome x (regionWord s x) s = .valid := by
    unfold checkOutcome at h
    dsimp only at h
    split at h
    · cases h
    · split at h
      · cases h
      · split at h
        · cases h
        · exact h
  unfold replacementOutcome replacement at hreplaced
  rw [if_pos hx] at hreplaced
  by_cases hallowed : replacementAllowed s = true
  · exact (Bool.and_eq_true_iff.1 hallowed).2
  · rw [if_neg hallowed] at hreplaced
    cases hreplaced

/-- The end of a check leaves the contactors alone, or replaces their table with every tower at rest. -/
theorem completeCheck_cases (x : Target) (s : State) : UnitsKept s (completeCheck x s)
    ∨ (s.dsy.allAtRest = true ∧ ∃ w, UnitsKept (replaceContactors w s) (completeCheck x s)) := by
  unfold completeCheck
  split
  · exact .inl (.refl s)
  · split
    · exact .inl (.refl s)
    next c _ v n _ =>
      dsimp only
      unfold actOnCheck
      split
      next hvalid =>
        unfold makeLive
        split
        next => exact .inl ((((UnitsKept.refl s).onSlot ..).setClaim ..).raise ..)
        next =>
          dsimp only
          split
          next hx =>
            exact .inr ⟨checkOutcome_valid_rest hvalid hx, _, (((UnitsKept.refl _).setLdu _).setClaim ..).raise ..⟩
          next => exact .inl (((((UnitsKept.refl s).replaceSchedule _).setLdu _).setClaim ..).raise ..)
      next => exact .inl ((((UnitsKept.refl s).onSlot ..).setClaim ..).raise ..)

theorem completeCheck_law (x : Target) {s : State} (hrun : s.running = true) (hs : ContactorLaw s) :
    ContactorLaw (completeCheck x s) := by
  rcases completeCheck_cases x s with hkept | ⟨_, w, hkept⟩
  · exact (Moves.ofKept (still := fun _ => False) hkept).law hs
  · exact (Moves.ofKept (still := fun _ => False) hkept).law (replaceContactors_law w hrun)

namespace Moves

variable {still : TowerIx → Prop} {o s t : State}

theorem auxDebounced (c : ContactorIx) (i : AuxInput) (s : State) : Moves still s (auxDebounced c i s) := by
  unfold Machine.auxDebounced
  split
  next =>
    have entry : (s.ctu.units[c].debounced i).entry = s.ctu.units[c].entry := by cases i <;> rfl
    have unit := onUnit_get s c c fun u => u.debounced i
    rw [if_pos rfl] at unit
    dsimp only
    split
    next hr =>
      rw [unit] at hr
      exact ofUnit c _ (.same entry hr)
    next =>
      unfold readingChanged
      split
      next hn => exact ofUnit c _ ⟨fun _ => by rw [← unit]; exact hn, fun e he => by
        rw [unit, entry, he] at hn; cases hn⟩
      next e he =>
        obtain ⟨x, hkept, hlawful⟩ := takeReading_state he
        rw [unit] at he hlawful
        have hmoved : ContactorUnit.Moved still s.ctu.units[c]
            { s.ctu.units[c].debounced i with entry := some { e with state := x } } := by
          refine ⟨fun h => ?_, fun f hf => ?_⟩
          · rw [entry, h] at he; cases he
          · rw [entry, hf] at he
            obtain rfl := Option.some.inj he
            exact ⟨_, rfl, .stays rfl rfl (hlawful _)⟩
        have reached : UnitsKept (s.onUnit c fun u => { u.debounced i with entry := some { e with state := x } })
            ((s.onUnit c fun u => u.debounced i).setContactor c { e with state := x }) := by
          refine ⟨rfl, vector_ext fun k => ?_⟩
          rw [setContactor_get, onUnit_get, onUnit_get, onUnit_get, if_pos rfl]
          split <;> rfl
        exact (ofUnit c _ hmoved).andKept (reached.trans (hkept.takeReport ..))
  next => exact refl s

theorem travelExpired (c : ContactorIx) (s : State) : Moves still s (travelExpired c s) := by
  unfold Machine.travelExpired
  split
  next => exact refl s
  next e he =>
    have stuck : Moves still s (s.setContactor c { e with state := .stuck }) :=
      setContactor he (.stays rfl rfl fun _ => lawful_stuck rfl)
    exact ite (stuck.andKept (((UnitsKept.refl _).raise ..).takeStuck c)) (refl s)

theorem auxInputChange (c : ContactorIx) (i : AuxInput) (b : Bool) (s : State) :
    Moves still s (s.onUnit c fun u => if s.running then u.auxLevel i b else u.auxLineOnly i b) := by
  refine ofUnit c _ ?_
  split
  · exact ContactorUnit.auxLevel_moved ..
  · exact ContactorUnit.auxLineOnly_moved ..

theorem idle (s : State) : Moves still s (idle s) := by
  unfold Machine.idle
  split
  · split
    · exact ⟨rfl, fun _ => .refl _⟩
    · refine ite (ite ⟨rfl, fun k => ?_⟩ ⟨rfl, fun _ => .refl _⟩) (refl s)
      show ContactorUnit.Moved still _ (Vector.map _ _)[k]
      rw [map_get]
      exact ContactorUnit.tick_moved _
  · exact refl s

/-! ### Rows that move (R44) -/

theorem receiveSample (rx : Rx) (s : State) (hbefore : ∀ t : TowerIx, s.dsy.towers[t].amp = 0 → still t)
    (hafter : ∀ (t : TowerIx) d, (Machine.receiveSample rx s).dsy.towers[t].port = some d → d.state = .idle → still t) :
    Moves still s (receiveSample rx s) := by
  cases hf : parseSample rx with
  | none =>
    rw [receiveSample_failed hf] at hafter ⊢
    have failed := ofKept (still := still) ((UnitsKept.refl s).setRif (s.rif.takeFailed rx))
    by_cases hhand : s.rif.recv = .hunt ∨ s.dsy.localPace = true
    · rw [receiveFailed_unhanded hhand]
      exact failed
    · rw [not_or, Bool.not_eq_true] at hhand
      rw [receiveFailed_handed hhand.1 hhand.2] at hafter ⊢
      exact (failed.andKept ((UnitsKept.refl _).setDsy _)).ringFrame _ _ hbefore hafter
  | some f =>
    rw [receiveSample_valid hf] at hafter ⊢
    have valid := ofKept (still := still) ((UnitsKept.refl s).setRif (s.rif.takeValid f.number rx))
    by_cases hhand : (s.rif.takeValid f.number rx).recv = .hunt
    · rw [receiveValid_unhanded hhand]
      exact valid
    · have taken : Moves still s (ringTaken f rx s) := ite (valid.enterGood hbefore) valid
      have orders : OrdersOnly s (ringTaken f rx s) :=
        OrdersOnly.ite ((OrdersOnly.refl s).setRif _).enterGood ((OrdersOnly.refl s).setRif _)
      rw [receiveValid_handed hhand] at hafter ⊢
      refine (taken.andKept ((UnitsKept.refl _).setDsy _)).ringFrame _ _ (fun t ht => hbefore t ?_) hafter
      exact (orders.dsy.tower t).amp.symm.trans ht

theorem missFrame (s : State) (hbefore : ∀ t : TowerIx, s.dsy.towers[t].amp = 0 → still t)
    (hafter : ∀ (t : TowerIx) d, (Machine.missFrame s).dsy.towers[t].port = some d → d.state = .idle → still t) :
    Moves still s (missFrame s) := by
  cases hpace : s.dsy.localPace with
  | true => rw [show Machine.missFrame s = s from if_pos hpace]; exact refl s
  | false =>
    have hmiss : Machine.missFrame s = handHeld Config.paceQuarters
        (s.setRif { s.rif with frame := s.rif.nextFrame, slotOpen := false }) := if_neg (by simp [hpace])
    rw [hmiss] at hafter ⊢
    exact (ofKept (((UnitsKept.refl s).setRif _).setDsy _)).ringFrame _ _ hbefore hafter

theorem localFrame (s : State)
    (hafter : ∀ (t : TowerIx) d, (Machine.localFrame s).dsy.towers[t].port = some d → d.state = .idle → still t) :
    Moves still s (localFrame s) := by
  cases hpace : s.dsy.localPace with
  | false => rw [show Machine.localFrame s = s from if_neg (by simp [hpace])]; exact refl s
  | true =>
    rw [show Machine.localFrame s = Machine.takeAtRest (s.setDsy s.dsy.writeLocal) from if_pos hpace] at hafter ⊢
    refine (ofKept ((UnitsKept.refl s).setDsy _)).takeAtRest fun t _ => ?_
    have hport := ((OrdersOnly.refl (s.setDsy s.dsy.writeLocal)).takeAtRest.dsy.tower t).port
    rw [State.setDsy_dsy, writeLocal_tower] at hport
    exact hafter t _ hport rfl

theorem continueBody (hstill : ∀ t : TowerIx, s.dsy.atRest t = true → still t) (m : Mgmt) :
    Moves still s (continueBody m s).1 := by
  unfold Machine.continueBody
  split
  · exact refl s
  · split_ifs
    · exact refl s
    · exact refl s
    · have withdrawn := ofKept (still := still) ((UnitsKept.refl s).withdraw .replaced)
      refine (withdrawn.enterSwitching (fun t ht => hstill t ?_) _).andKept ((UnitsKept.refl _).raise ..)
      rwa [withdraw_eq] at ht

theorem retreatBody (hstill : ∀ t : TowerIx, s.dsy.atRest t = true → still t) (m : Mgmt) :
    Moves still s (retreatBody m s).1 := by
  unfold Machine.retreatBody
  split
  · exact refl s
  · split
    · exact refl s
    · split
      · exact refl s
      · split
        next => exact refl s
        next hrest =>
          have hrest := (allAtRest_iff _).1 (by simpa using hrest)
          exact (ofKept (((UnitsKept.refl s).withdraw .replaced).closeRecord ..)).launch (fun t _ => hstill t (hrest t)) _ _

theorem moveBody (hstill : ∀ t : TowerIx, s.dsy.atRest t = true → still t) (m : Mgmt) : Moves still s (moveBody m s).1 := by
  unfold Machine.moveBody
  split
  · exact (refl s).moveRequest hstill ..
  · exact refl s

theorem whileRunning {f : State → State} (hf : Moves still s (f s)) : Moves still s (whileRunning f s) := ite hf (refl s)

theorem whileCounting {f : State → State} (hf : Moves still s (f s)) : Moves still s (whileCounting f s) := ite hf (refl s)

/-- A command of CMU moves the contactors that its block moves (R166). -/
theorem serve {c : Cmd} {body : Mgmt → State → State × Answer} (hb : ∀ m, Moves still s (body m s).1) :
    Moves still s (Machine.whileRunning (serve c body) s) := by
  have finished : ∀ (m : Mgmt) (r : State × Answer), UnitsKept r.1 (finishCommand m r) := fun _ _ => ⟨rfl, rfl⟩
  refine whileRunning ?_
  unfold Machine.serve
  split
  · exact refl s
  next m _ _ =>
    refine ite ?_ (refl s)
    unfold runCommand
    split
    · exact (refl s).andKept (finished m (s, _))
    · exact (hb m).andKept (finished m _)

theorem serveUnknown (s : State) : Moves still s (serveUnknown s) := by
  unfold Machine.serveUnknown
  split
  · exact refl s
  · exact ite ⟨rfl, fun _ => .refl _⟩ (refl s)

end Moves

/-! ## Every command (R42, R44) -/

/-- The rows that replace or undefine contactors: power-on, RESET, and the end of a check. -/
def replacesContactors : Instr → Bool
  | .powerOnReset _ | .resetAsserted | .checkCompletion _ => true
  | _ => false

/-- Tower j stands still enough for row i, which takes s to t, to move its contactors (R44): as a frame begins or after it for
the frame rows, in s for the rows of CMU that move; no other row moves any. -/
def stillFor (i : Instr) (s t : State) (j : TowerIx) : Prop :=
  match i with
  | .sampleFrame _ | .missedFrame | .localPaceFrame =>
    s.dsy.towers[j].amp = 0 ∨ ∃ d, t.dsy.towers[j].port = some d ∧ d.state = .idle
  | .continueTx | .retreat | .move => s.dsy.atRest j = true
  | _ => False

/-- Every other row moves contactors at most, and those with towers that stand still. -/
theorem exec_moves (i : Instr) (s : State) (hi : replacesContactors i = false) :
    ∃ t, exec i s = .next t ∧ Moves (stillFor i s t) s t := by
  have u := UnitsKept.refl s
  have running : ∀ {still : TowerIx → Prop} {f : State → State}, UnitsKept s (f s) → Moves still s (whileRunning f s) :=
    fun hf => .whileRunning (.ofKept hf)
  have counting : ∀ {still : TowerIx → Prop} {f : State → State}, UnitsKept s (f s) → Moves still s (whileCounting f s) :=
    fun hf => .whileCounting (.ofKept hf)
  have served : ∀ {still : TowerIx → Prop} {c : Cmd} {body : Mgmt → State → State × Answer},
      (∀ m, UnitsKept s (body m s).1) → Moves still s (whileRunning (serve c body) s) :=
    fun hb => .serve fun m => .ofKept (hb m)
  cases i with
  | powerOnReset | resetAsserted | checkCompletion => cases hi
  | refclkStopped | refclkReturned => exact ⟨_, rfl, .ofKept ⟨rfl, rfl⟩⟩
  | sampleFrame rx =>
    refine ⟨_, rfl, ?_⟩
    unfold whileRunning
    split
    · exact .receiveSample rx s (fun _ => .inl) fun _ d hport hidle => .inr ⟨d, hport, hidle⟩
    · exact .refl s
  | missedFrame =>
    refine ⟨_, rfl, ?_⟩
    unfold whileCounting
    split
    · exact .missFrame s (fun _ => .inl) fun _ d hport hidle => .inr ⟨d, hport, hidle⟩
    · exact .refl s
  | localPaceFrame =>
    refine ⟨_, rfl, ?_⟩
    unfold whileCounting
    split
    · exact .localFrame s fun _ d hport hidle => .inr ⟨d, hport, hidle⟩
    · exact .refl s
  | lossTimerExpiry => exact ⟨_, rfl, counting u.lossExpiry⟩
  | mgmtFrame rx => exact ⟨_, rfl, running (u.receiveMgmt rx)⟩
  | timeFrame rx => exact ⟨_, rfl, running (u.receiveTime rx)⟩
  | releaseFrame rx => exact ⟨_, rfl, running (u.receiveRelease rx)⟩
  | emptyFrame rx => exact ⟨_, rfl, running (u.receiveEmpty rx)⟩
  | status | read => exact ⟨_, rfl, served fun _ => u⟩
  | switch => exact ⟨_, rfl, served u.switchBody⟩
  | withdraw => exact ⟨_, rfl, served u.withdrawBody⟩
  | go => exact ⟨_, rfl, served u.goBody⟩
  | continueTx => exact ⟨_, rfl, .serve (.continueBody fun _ => id)⟩
  | retreat => exact ⟨_, rfl, .serve (.retreatBody fun _ => id)⟩
  | mute => exact ⟨_, rfl, served fun _ => (u.withdraw .mute).muteArray _⟩
  | move => exact ⟨_, rfl, .serve (.moveBody fun _ => id)⟩
  | ackFault => exact ⟨_, rfl, served fun _ => u.setMon _⟩
  | trimClear => exact ⟨_, rfl, served u.trimClearBody⟩
  | scheduleHold => exact ⟨_, rfl, served u.scheduleHoldBody⟩
  | claim => exact ⟨_, rfl, served u.claimBody⟩
  | load => exact ⟨_, rfl, served u.loadBody⟩
  | commit => exact ⟨_, rfl, served u.commitBody⟩
  | finish => exact ⟨_, rfl, served u.finishBody⟩
  | unclaim => exact ⟨_, rfl, served u.unclaimBody⟩
  | reporting => exact ⟨_, rfl, served fun _ => u.setRif _⟩
  | clearOverflow => exact ⟨_, rfl, served fun _ => u.setCmu _⟩
  | restart => exact ⟨_, rfl, served fun _ => ⟨rfl, rfl⟩⟩
  | interlockOpening => exact ⟨_, rfl, .ofKept u.ilkLineOpen⟩
  | interlockLineClosed => exact ⟨_, rfl, .ofKept (u.setDsy _)⟩
  | interlockQualified => exact ⟨_, rfl, counting u.ilkQualified⟩
  | rdyLineChange t b => exact ⟨_, rfl, .ofKept (u.setDsy _)⟩
  | cabinetDebounceExpiry t => exact ⟨_, rfl, counting (u.rdyDebounced t)⟩
  | auxInputChange c a b => exact ⟨_, rfl, .auxInputChange c a b s⟩
  | auxDebounceExpiry c a => exact ⟨_, rfl, .whileCounting (.auxDebounced c a s)⟩
  | travelLimitExpiry c => exact ⟨_, rfl, .whileCounting (.travelExpired c s)⟩
  | settleTimerExpiry => exact ⟨_, rfl, counting u.settleExpired⟩
  | gateTimerExpiry => exact ⟨_, rfl, counting u.gateExpired⟩
  | claimLapse x => exact ⟨_, rfl, counting (u.lapse x)⟩
  | monitorRecord rx => exact ⟨_, rfl, running (u.takeRecord rx)⟩
  | absenceTimerExpiry => exact ⟨_, rfl, counting u.absenceExpiry⟩
  | holdOffExpiry => exact ⟨_, rfl, counting (u.setMon _)⟩
  | staleTimerExpiry => exact ⟨_, rfl, counting u.staleExpiry⟩
  | unknownCommand => exact ⟨_, rfl, .whileRunning (.serveUnknown s)⟩

/-- With no contactor defined the law stands. -/
theorem contactorLaw_undefined {t : State} (h : ∀ k : ContactorIx, t.ctu.units[k].entry = none) : ContactorLaw t :=
  fun c _ he => nomatch (h c).symm.trans he

/-- Every command keeps the law of the contactors: a row that moves contactors keeps it number by number, power-on and RESET
leave none defined, and a replaced table derives lawful states (R53). -/
theorem exec_contactorLaw (i : Instr) {s : State} (hs : ContactorLaw s) : ∃ t, exec i s = .next t ∧ ContactorLaw t := by
  cases hi : replacesContactors i with
  | false =>
    obtain ⟨t, ht, hmoves⟩ := exec_moves i s hi
    exact ⟨t, ht, hmoves.law hs⟩
  | true =>
    cases i with
    | powerOnReset a => exact ⟨_, rfl, contactorLaw_undefined fun k => congrArg ContactorUnit.entry (map_get ..)⟩
    | resetAsserted => exact ⟨_, rfl, contactorLaw_undefined fun k => congrArg ContactorUnit.entry (map_get ..)⟩
    | checkCompletion x =>
      refine ⟨_, rfl, ?_⟩
      unfold whileRunning
      split
      next hrun => exact completeCheck_law x hrun hs
      next => exact hs
    | _ => cases hi

/-- Settles O56: an idle step moves contactors by their travel times at most, a command keeps the law by
`exec_contactorLaw`. -/
theorem stepsKeepTheContactorLaw : Obligations.StepsKeepTheContactorLaw := by
  intro s t hstep hs
  unfold step at hstep
  split at hstep
  next =>
    cases hstep
    exact (Moves.idle (still := fun _ => False) s).law hs
  next c rest _ =>
    obtain ⟨u, hu, hlaw⟩ := exec_contactorLaw (s := s.setPending rest) c hs
    rw [hu] at hstep
    cases hstep
    exact hlaw

end Sys2Proof.Machine
end

section
/-! SUPPORT. The command lines and the towers at rest; auxiliary inputs; move requests, MOVE and the moves of SWITCHING. -/
namespace Sys2Proof.Machine

/-! ## Command lines (R40, R44) -/

/-- A move request leaves every other contactor number alone. -/
theorem moveRequest_other {c k : ContactorIx} (h : k ≠ c) (p : Position) (s : State) :
    (moveRequest c p s).1.ctu.units[k] = s.ctu.units[k] := by
  have set : ∀ e, (s.setContactor c e).ctu.units[k] = s.ctu.units[k] := fun e => by rw [setContactor_get, if_neg h]
  unfold moveRequest
  split
  · rfl
  · split_ifs
    · rfl
    · rfl
    · rfl
    · exact set _
    · exact set _

/-- The rows that `stillFor` lets move contactors. -/
theorem stillFor_rows {i : Instr} {s t : State} {j : TowerIx} (h : stillFor i s t j) :
    ((∃ rx, i = .sampleFrame rx) ∨ i = .missedFrame ∨ i = .localPaceFrame)
      ∨ i = .continueTx ∨ i = .retreat ∨ i = .move := by
  unfold stillFor at h
  split at h
  case h_1 rx => exact .inl (.inl ⟨rx, rfl⟩)
  case h_2 => exact .inl (.inr (.inl rfl))
  case h_3 => exact .inl (.inr (.inr rfl))
  case h_4 => exact .inr (.inl rfl)
  case h_5 => exact .inr (.inr (.inl rfl))
  case h_6 => exact .inr (.inr (.inr rfl))
  case h_7 => exact h.elim

theorem assoc_names_tower (a : Assoc) : ∃ j : TowerIx, has a.towers j = true := by
  cases a with
  | tower j => exact ⟨j, (has_assoc ..).2 (.inl rfl)⟩
  | common => exact ⟨0, (has_assoc ..).2 (.inr rfl)⟩

/-- A line that a row changes, other than by power, RESET or a check, is that of a defined contactor whose towers stand still. -/
theorem exec_line {i : Instr} {s t : State} {k : ContactorIx} (hi : replacesContactors i = false) (ht : exec i s = .next t)
    (hk : t.ctu.line k ≠ s.ctu.line k) :
    ∃ e, s.ctu.units[k].entry = some e ∧ ∀ j : TowerIx, has e.assoc.towers j = true → stillFor i s t j := by
  obtain ⟨u, hu, hmoves⟩ := exec_moves i s hi
  obtain rfl := Host.Outcome.next.inj (hu.symm.trans ht)
  exact hmoves.line hk

/-- A check whose end changes a line has replaced the table, with every tower at rest (R52). -/
theorem exec_checkCompletion_line {x : Target} {s t : State} {k : ContactorIx} (ht : exec (.checkCompletion x) s = .next t)
    (hk : t.ctu.line k ≠ s.ctu.line k) : s.dsy.allAtRest = true := by
  obtain rfl : whileRunning (completeCheck x) s = t := Host.Outcome.next.inj ht
  unfold whileRunning at hk
  split at hk
  · rcases completeCheck_cases x s with hkept | ⟨hrest, _⟩
    · exact absurd ((Moves.ofKept hkept).line_fixed k) hk
    · exact hrest
  · exact absurd rfl hk

/-- Settles O30: a move takes the towers of its contactor at rest (`Moves.line`), and `exec_moves` says for every row which
towers then stand still. -/
theorem commandLinesChangeOnlyAtRest : Obligations.CommandLinesChangeOnlyAtRest := by
  refine ⟨fun c k p s hk => ⟨?_, ((Moves.refl s).moveRequest (fun _ => id) c p).line hk⟩,
    fun rs x k s hk => ((Moves.refl s).giveMoves (fun _ => id) rs x).line hk,
    fun k s hk => ((Moves.refl s).takeAtRest fun _ => id).line hk, fun i k s t hi ht hk => ?_, fun i k s t hi ht hk => ?_,
    fun x k s t ht hk => (allAtRest_iff _).1 (exec_checkCompletion_line ht hk), fun i k s t ht hk => ?_⟩
  · by_contra hne
    exact hk (by rw [Ctu.line, Ctu.line, moveRequest_other hne])
  · rcases hi with rfl | rfl | rfl <;> exact exec_line rfl ht hk
  · rcases hi with ⟨rx, rfl⟩ | rfl | rfl <;> exact exec_line rfl ht hk
  · cases hi : replacesContactors i with
    | false =>
      obtain ⟨e, _, hstill⟩ := exec_line hi ht hk
      obtain ⟨j, hj⟩ := assoc_names_tower e.assoc
      have hrows := stillFor_rows (hstill j hj)
      tauto
    | true =>
      cases i with
      | powerOnReset a => exact .inl ⟨a, rfl⟩
      | resetAsserted => exact .inr (.inl rfl)
      | checkCompletion x =>
        have hcheck : ∃ y, Instr.checkCompletion x = .checkCompletion y := ⟨x, rfl⟩
        tauto
      | _ => cases hi

/-! ## Auxiliary inputs (R41) -/

/-- The reading tells the two debounced levels apart (R41). -/
theorem ContactorUnit.reading_spec (u : ContactorUnit) : (u.reading = .showsOpen ↔ u.openShown = true ∧ u.closedShown = false)
    ∧ (u.reading = .showsClosed ↔ u.openShown = false ∧ u.closedShown = true)
    ∧ (u.reading = .neither ↔ u.openShown = false ∧ u.closedShown = false)
    ∧ (u.reading = .both ↔ u.openShown = true ∧ u.closedShown = true) := by
  unfold ContactorUnit.reading
  cases u.openShown <;> cases u.closedShown <;> decide

theorem Reading.agrees_iff (r : Reading) (p : Position) :
    r.agrees p = true ↔ r = .showsOpen ∧ p = .opened ∨ r = .showsClosed ∧ p = .closed := by
  cases r <;> cases p <;> decide

/-- While the unit runs an input's line starts, goes on with or stops its debounce; else only the line is followed. -/
theorem exec_auxInputChange (c : ContactorIx) (i : AuxInput) (b : Bool) (s : State) : exec (.auxInputChange c i b) s
    = .next (s.onUnit c fun u => if s.running = true then u.auxLevel i b else u.auxLineOnly i b) := rfl

/-- Settles O31: the case split is on the input, and `debounceStep_eq` says when its debounce runs. -/
theorem auxiliaryInputsAreDebounced : Obligations.AuxiliaryInputsAreDebounced := by
  refine ⟨fun c b s => ⟨?_, ?_⟩, fun _ _ _ => rfl,
    fun u => ⟨rfl, rfl, Option.isSome_iff_ne_none, Option.isSome_iff_ne_none⟩, ContactorUnit.reading_spec,
    Reading.agrees_iff, rfl, fun _ => rfl, rfl⟩
  · simp only [exec_auxInputChange, ContactorUnit.auxLevel, ContactorUnit.auxLineOnly, debounceStep_eq]
  · simp only [exec_auxInputChange, ContactorUnit.auxLevel, ContactorUnit.auxLineOnly, debounceStep_eq]

/-! ## Move requests (R42, R43) -/

theorem ContactorState.standsAt_iff (x : ContactorState) (p : Position) :
    x.standsAt p = true ↔ x = .opened ∧ p = .opened ∨ x = .closed ∧ p = .closed := by
  cases x <;> cases p <;> simp [ContactorState.standsAt]

theorem ContactorState.travelsTo_iff (x : ContactorState) (p : Position) :
    x.travelsTo p = true ↔ ∃ n, x = .toOpen n ∧ p = .opened ∨ x = .toClosed n ∧ p = .closed := by
  cases x <;> cases p <;> simp [ContactorState.travelsTo]

/-- A contactor that travels stands nowhere. -/
theorem ContactorState.standsAt_of_travelsTo {x : ContactorState} {p : Position} (h : x.travelsTo p = true) :
    x.standsAt p = false := by
  obtain ⟨n, ⟨rfl, _⟩ | ⟨rfl, _⟩⟩ := (x.travelsTo_iff p).1 h <;> rfl

theorem ContactorState.travel_iff (x : ContactorState) (n : Nat) : x.travel = some n ↔ x = .toOpen n ∨ x = .toClosed n := by
  cases x <;> simp [ContactorState.travel]

/-- The towers of an association are at rest. -/
theorem restIn_assoc (d : Dsy) (a : Assoc) :
    d.restIn a.towers = true ↔ ∀ t : TowerIx, a = .tower t ∨ a = .common → d.atRest t = true := by
  simp only [restIn_iff, has_assoc]

section
variable {c : ContactorIx} {p : Position} {s : State} {e : Contactor}

theorem moveRequest_undefined (he : s.ctu.units[c].entry = none) : moveRequest c p s = (s, .notValid) := by
  unfold moveRequest
  rw [he]

theorem moveRequest_standing (he : s.ctu.units[c].entry = some e) (hp : e.state.standsAt p = true) :
    moveRequest c p s = (s, .done false) := by
  unfold moveRequest
  rw [he]
  exact if_pos hp

theorem moveRequest_travelling (he : s.ctu.units[c].entry = some e) (hp : e.state.travelsTo p = true) :
    moveRequest c p s = (s, .started) := by
  unfold moveRequest
  rw [he]
  exact (if_neg (by simp [ContactorState.standsAt_of_travelsTo hp])).trans (if_pos hp)

/-- A contactor that neither stands at the position nor travels to it is moved where its towers are at rest (R43, R44). -/
theorem moveRequest_moving (he : s.ctu.units[c].entry = some e) (hs : e.state.standsAt p = false)
    (ht : e.state.travelsTo p = false) : moveRequest c p s =
      if s.dsy.restIn e.assoc.towers = false then (s, .interlock)
      else if s.ctu.units[c].reading.agrees p then
        (raiseConfirmed c p 0 e.limit (s.setContactor c { e with commanded := p, state := standing p }), .done true)
      else (s.setContactor c { e with commanded := p, state := travelFrom p }, .started) := by
  unfold moveRequest
  rw [he]
  exact (if_neg (by simp [hs])).trans (if_neg (by simp [ht]))

end

theorem Ctu.line_iff (u : Ctu) (c : ContactorIx) :
    u.line c = true ↔ ∃ e, u.units[c].entry = some e ∧ e.commanded = .closed := by
  unfold Ctu.line
  cases u.units[c].entry <;> simp

theorem setContactor_line (c k : ContactorIx) (e : Contactor) (s : State) :
    (s.setContactor c e).ctu.line k = if k = c then e.commanded == .closed else s.ctu.line k := by
  unfold Ctu.line
  by_cases h : k = c
  · rw [setContactor_get, if_pos h, if_pos h]
  · rw [setContactor_get, if_neg h, if_neg h]

/-! ## MOVE (R50) -/

theorem moveParams_spec {m : Mgmt} (h : precheck .move m = none) : (moveParams m).1.val = field (m.param 0) 0 8
    ∧ ((moveParams m).2 = .closed ↔ field (m.param 0) 8 8 = 1) := by
  have hrange := precheck_ranges h (0, field (m.param 0) 0 8 ≤ 23 && field (m.param 0) 8 8 ≤ 1) (by simp [Cmd.ranges])
  simp only [Bool.and_eq_true, decide_eq_true_eq] at hrange
  refine ⟨Nat.mod_eq_of_lt (by omega), ?_⟩
  unfold moveParams
  split_ifs with hclosed <;> simp [hclosed]

theorem exec_move {m : Mgmt} {s : State} (h : Serves .move m s) : exec .move s = .next (finishCommand m (moveBody m s)) :=
  congrArg Host.Outcome.next (serve_served h moveBody)

theorem ArrayState.allowsMove_iff (a : ArrayState) : a.allowsMove = true ↔ a = .unset ∨ ∃ r, a = .muted r := by
  cases a <;> simp [ArrayState.allowsMove]

theorem moveBody_refused {m : Mgmt} {s : State} (hunset : s.txe.array ≠ .unset) (hmuted : ∀ r, s.txe.array ≠ .muted r) :
    moveBody m s = (s, answer .wrongState []) := by
  refine if_neg ?_
  rw [ArrayState.allowsMove_iff]
  exact fun h => h.elim hunset fun ⟨r, hr⟩ => hmuted r hr

theorem moveBody_taken {m : Mgmt} {s : State} (h : s.txe.array = .unset ∨ ∃ r, s.txe.array = .muted r) :
    moveBody m s = ((moveRequest (moveParams m).1 (moveParams m).2 s).1,
      answer (moveRequest (moveParams m).1 (moveParams m).2 s).2.outcome []) :=
  if_pos ((ArrayState.allowsMove_iff _).2 h)

/-! ## The moves of SWITCHING (R70) -/

section
variable {c : ContactorIx} {p : Position} {s : State} {e : Contactor} (rs : List (ContactorIx × Position)) (x : TxContext)

theorem giveMoves_undefined (he : s.ctu.units[c].entry = none) : giveMoves ((c, p) :: rs) x s = giveMoves rs x s := by
  rw [giveMoves, Ctu.stateOf, he]
  rfl

/-- A contactor of the list that is defined: passed over where it stands, awaited where it travels, and given its move request
otherwise. -/
theorem giveMoves_defined (he : s.ctu.units[c].entry = some e) : giveMoves ((c, p) :: rs) x s =
    if e.state.standsAt p then giveMoves rs x s
    else if e.state.travelsTo p then giveMoves rs (x.await c) s
    else match (moveRequest c p s).2 with
      | .started => giveMoves rs (x.await c) (moveRequest c p s).1
      | .done confirmed => giveMoves rs { x with moved := x.moved || confirmed } (moveRequest c p s).1
      | .interlock => (x, s, some c)
      | .notValid => giveMoves rs x s := by
  rw [giveMoves, Ctu.stateOf, he]
  rfl

end

/-- With every move request of the list given, SWITCHING is entered and judged. -/
theorem enterSwitching_all {c x : TxContext} {s t : State}
    (h : giveMoves (recRequirements (s.recordOf c.target)) { c with awaited := 0, moved := false } s = (x, t, none)) :
    enterSwitching c s = judgeSwitching (t.setArray (.switching x)) := by
  unfold enterSwitching
  rw [h]

/-- A move request answered INTERLOCK halts SWITCHING on its contactor. -/
theorem enterSwitching_interlock {c x : TxContext} {k : ContactorIx} {s t : State}
    (h : giveMoves (recRequirements (s.recordOf c.target)) { c with awaited := 0, moved := false } s = (x, t, some k)) :
    enterSwitching c s = halt .stuck (.contactor k) (t.setArray (.switching x)) := by
  unfold enterSwitching
  rw [h]

/-- Settles O29: a request is decided by whether its contactor stands at the position or travels to it
(`moveRequest_standing`, `moveRequest_travelling`, `moveRequest_moving`), and SWITCHING gives one for each that does neither
(`giveMoves_defined`). -/
theorem moveRequestsAreTakenByState : Obligations.MoveRequestsAreTakenByState := by
  refine ⟨fun c p s => ⟨moveRequest_undefined, fun e he => ⟨fun h => ?_, fun n h => ?_, fun h => ?_⟩⟩, fun p x => ?_,
    has_assoc, Ctu.line_iff, fun _ _ _ => rfl, fun b c k => ⟨rfl, by simp⟩, setContactor_line, fun m s hserves => ?_,
    fun _ _ => rfl,
    fun c p rs x s => ⟨giveMoves_undefined rs x, fun e he => ⟨fun hs => ?_, fun ht => ?_, fun hs ht t a hreq => ?_⟩⟩,
    fun c s t x b hgiven => ?_⟩
  · exact moveRequest_standing he ((ContactorState.standsAt_iff ..).2 h)
  · exact moveRequest_travelling he ((ContactorState.travelsTo_iff ..).2 ⟨n, h⟩)
  · have hs : e.state.standsAt p = false := by
      rw [← Bool.not_eq_true, ContactorState.standsAt_iff]
      rintro (⟨hx, rfl⟩ | ⟨hx, rfl⟩) <;> simp [hx] at h
    have ht : e.state.travelsTo p = false := by
      rw [← Bool.not_eq_true, ContactorState.travelsTo_iff]
      rintro ⟨n, ⟨hx, rfl⟩ | ⟨hx, rfl⟩⟩ <;> simp [hx] at h
    rw [moveRequest_moving he hs ht]
    refine ⟨fun ⟨t, htower, hrest⟩ => if_pos ?_, fun hrest => ?_⟩
    · rw [← Bool.not_eq_true, restIn_assoc]
      exact fun hall => by simp [hall t htower] at hrest
    · rw [if_neg (by simp [(restIn_assoc ..).2 hrest])]
      exact ⟨fun hr => if_pos hr, fun hr => if_neg (by rw [hr]; exact Bool.noConfusion)⟩
  · refine ⟨x.standsAt_iff p, x.travelsTo_iff p, x.travel_iff, ?_⟩
    cases p <;> exact ⟨rfl, rfl, rfl⟩
  · obtain ⟨hnumber, hposition⟩ := moveParams_spec hserves.2.2.2
    rw [exec_move hserves]
    refine ⟨hnumber, hposition, fun hunset hmuted => ?_, fun harray =>
      ⟨(moveRequest (moveParams m).1 (moveParams m).2 s).2.outcome, ?_, ?_⟩⟩
    · rw [moveBody_refused hunset hmuted]
      rfl
    · rw [moveBody_taken harray]
      rfl
    · refine ⟨fun h => ?_, fun h => ?_, fun h => ?_, fun b h => ?_⟩ <;> · rw [h]; rfl
  · rw [giveMoves_defined rs x he, if_pos hs]
  · rw [giveMoves_defined rs x he, if_neg (by simp [ContactorState.standsAt_of_travelsTo ht]), if_pos ht]
    rfl
  · rw [giveMoves_defined rs x he, if_neg (by simp [hs]), if_neg (by simp [ht]), hreq]
    refine ⟨fun ha => ?_, fun b ha => ?_, fun ha => ?_⟩
    · rw [ha]; rfl
    · rw [ha]
    · rw [ha]
  · refine ⟨fun hb => ?_, fun k hb => ?_⟩
    · subst hb
      exact enterSwitching_all hgiven
    · subst hb
      exact enterSwitching_interlock hgiven

end Sys2Proof.Machine
end

section
/-! SUPPORT. The expiries of the travel limit, the settle timer and the gate timer. -/
namespace Sys2Proof.Machine

theorem whileCounting_running {s : State} (h : Counting s) (f : State → State) : whileCounting f s = f s :=
  if_pos (by rw [h.1, h.2]; rfl)

/-- A halt takes its context from the view of the phase it ends and clears the guard (R83, R84). -/
theorem halt_record {s : State} {v : HaltView} (r : HaltReason) (u : HaltSubject) (hv : haltView s = some v) :
    (halt r u s).ctu = { s.ctu with guard := none } ∧ ∃ h, (halt r u s).txe.array = .halted h ∧ h.reason = r
      ∧ h.subject = u ∧ h.step = v.step ∧ h.source = v.source ∧ h.target = v.target := by
  obtain ⟨b, hb⟩ := halt_array (r := r) (u := u) hv
  exact ⟨halt_ctu hv, _, hb, rfl, rfl, rfl, rfl, rfl⟩

theorem takeStuck_switching {s : State} {x : TxContext} (c : ContactorIx) (h : s.txe.array = .switching x) :
    takeStuck c s = halt .stuck (.contactor c) s := by
  unfold takeStuck
  rw [h]

/-- Outside SWITCHING TXE does nothing on a stuck contactor (R75). -/
theorem takeStuck_other {s : State} (c : ContactorIx) (h : ∀ x, s.txe.array ≠ .switching x) : takeStuck c s = s := by
  unfold takeStuck
  split
  case h_1 x hx => exact absurd hx (h x)
  all_goals rfl

theorem afterSettle_joint {x : TxContext} {g : Nat} (h : x.joint = some g) (s : State) :
    afterSettle x s = enterReadyUp x g s := by
  unfold afterSettle
  rw [h]

theorem afterSettle_alone {x : TxContext} (h : x.joint = none) (s : State) : afterSettle x s = startRampUp x s := by
  unfold afterSettle
  rw [h]

/-- Only the commanded position drives the line: another state leaves it (R46). -/
theorem setContactor_line_commanded {s : State} {c : ContactorIx} {e : Contactor} (he : s.ctu.units[c].entry = some e)
    (x : ContactorState) : (s.setContactor c { e with state := x }).ctu.line = s.ctu.line := by
  funext k
  rw [setContactor_line]
  split_ifs with hk
  · subst hk
    unfold Ctu.line
    rw [he]
  · rfl

theorem travelExpired_idle {s : State} {c : ContactorIx} (h : ∀ e, s.ctu.units[c].entry = some e → e.state.travel = none) :
    travelExpired c s = s := by
  unfold travelExpired
  split
  · rfl
  · next e he => exact if_neg (by rw [h e he]; decide)

theorem travelExpired_travelling {s : State} {c : ContactorIx} {e : Contactor} {n : Nat}
    (he : s.ctu.units[c].entry = some e) (hn : e.state.travel = some n) : travelExpired c s
      = takeStuck c ((s.setContactor c { e with state := .stuck }).raise .contactorStuck (subjectOf c.val)
          [word e.commanded.code, word s.ctu.units[c].reading.code]) := by
  unfold travelExpired
  rw [he]
  exact if_pos (by rw [hn]; rfl)

theorem settleExpired_idle {s : State} (h : ∀ x n, s.txe.array ≠ .settle x n) : settleExpired s = s := by
  unfold settleExpired
  split
  case h_1 x n hx => exact absurd hx (h x n)
  all_goals rfl

theorem settleExpired_settling {s : State} {x : TxContext} {n : Nat} (h : s.txe.array = .settle x n) :
    settleExpired s = afterSettle x s := by
  unfold settleExpired
  rw [h]

theorem gateExpired_idle {s : State} (h : ∀ x n, s.txe.array ≠ .readyUp x (.awaiting n)) : gateExpired s = s := by
  unfold gateExpired
  split
  case h_1 x n hx => exact absurd hx (h x n)
  all_goals rfl

theorem gateExpired_awaiting {s : State} {x : TxContext} {n : Nat} (h : s.txe.array = .readyUp x (.awaiting n)) :
    gateExpired s = halt .gate .none s := by
  unfold gateExpired
  rw [h]

/-- Settles O33: each expiry is taken by the state its timer runs in, and a halt reads the context of that state
(`halt_record`). -/
theorem travelSettleAndGateExpiries : Obligations.TravelSettleAndGateExpiries := by
  refine ⟨fun x s => ⟨fun h => if_pos h, fun h => if_neg h, fun h => afterSettle_alone h s,
    fun g h => afterSettle_joint h s⟩, fun s hcount => ?_⟩
  simp only [exec, execTravelLimitExpiry, execSettleTimerExpiry, execGateTimerExpiry, whileCounting_running hcount]
  refine ⟨fun c => ⟨fun h => congrArg _ (travelExpired_idle h), fun e n he hn => ?_⟩,
    fun h => congrArg _ (settleExpired_idle h), fun x n hx => ?_, fun h => congrArg _ (gateExpired_idle h), fun x n hx => ?_⟩
  · rw [travelExpired_travelling he hn]
    refine ⟨setContactor_line_commanded he .stuck, fun h => congrArg _ (takeStuck_other c h), fun x hx => ?_⟩
    have hview : haltView ((s.setContactor c { e with state := .stuck }).raise .contactorStuck (subjectOf c.val)
        [word e.commanded.code, word s.ctu.units[c].reading.code]) = some (viewOf .switching x) := by
      unfold haltView
      rw [State.raise_txe, State.setContactor_txe, hx]
    exact ⟨congrArg _ (takeStuck_switching c hx), halt_record _ _ hview⟩
  · rw [settleExpired_settling hx]
    exact ⟨fun h => congrArg _ (afterSettle_alone h s), fun g h => congrArg _ (afterSettle_joint h s)⟩
  · rw [gateExpired_awaiting hx]
    have hview : haltView s = some (viewOf .readyUp x) := by
      unfold haltView
      rw [hx]
    exact ⟨rfl, halt_record _ _ hview⟩

end Sys2Proof.Machine
end

section
/-! SUPPORT. What a completed debounce of an auxiliary input does to its contactor and what TXE does on the report. -/
namespace Sys2Proof.Machine

/-! ## Readings (R45, R47, R48) -/

section
variable {c : ContactorIx} {e : Contactor} {s : State}

theorem takeReading_travelling {n : Nat} (h : e.state = .toOpen n ∨ e.state = .toClosed n) : takeReading c e s
    = if s.ctu.units[c].reading.agrees e.commanded then
        (raiseConfirmed c e.commanded n e.limit (s.setContactor c { e with state := standing e.commanded }), .confirmed)
      else if s.ctu.units[c].reading = .both then enterDisagree c e s
      else (s, .nothing) := by
  unfold takeReading
  rcases h with h | h <;> rw [h]

theorem takeReading_standing (h : e.state = .opened ∨ e.state = .closed) : takeReading c e s
    = if s.ctu.units[c].reading.agrees e.commanded then (s, .nothing) else enterDisagree c e s := by
  unfold takeReading
  rcases h with h | h <;> rw [h]

theorem takeReading_stuck (h : e.state = .stuck) : takeReading c e s
    = if s.ctu.units[c].reading = .both then enterDisagree c e s else (s, .nothing) := by
  unfold takeReading
  rw [h]

theorem takeReading_disagree (h : e.state = .disagree) : takeReading c e s
    = if s.ctu.units[c].reading.agrees e.commanded then
        ((s.setContactor c { e with state := standing e.commanded }).raise .contactorAgree (subjectOf c.val)
          [word e.commanded.code], .agree)
      else (s, .nothing) := by
  unfold takeReading
  rw [h]

end

/-! ## Completed debounces (R41) -/

section
variable {c : ContactorIx} {i : AuxInput} {s : State}

/-- The number of a completed debounce keeps its contactor. -/
theorem onUnit_debounced_entry (c : ContactorIx) (i : AuxInput) (s : State) :
    (s.onUnit c fun u => u.debounced i).ctu.units[c].entry = s.ctu.units[c].entry := by
  rw [onUnit_get, if_pos rfl]
  cases i <;> rfl

theorem auxDebounced_idle (h : s.ctu.units[c].debouncing i = false) : auxDebounced c i s = s :=
  if_neg (by rw [h]; exact Bool.noConfusion)

theorem auxDebounced_running (h : s.ctu.units[c].debouncing i = true) : auxDebounced c i s
    = if (s.onUnit c fun u => u.debounced i).ctu.units[c].reading = s.ctu.units[c].reading then s.onUnit c fun u => u.debounced i
      else readingChanged c (s.onUnit c fun u => u.debounced i) := if_pos h

theorem readingChanged_undefined (h : s.ctu.units[c].entry = none) : readingChanged c s = s := by
  unfold readingChanged
  rw [h]

theorem readingChanged_defined {e : Contactor} (he : s.ctu.units[c].entry = some e) :
    readingChanged c s = takeReport c (takeReading c e s).2 (takeReading c e s).1 := by
  unfold readingChanged
  rw [he]

/-- The same reading, or no contactor: the debounced level is all that changes. -/
theorem auxDebounced_quiet (h : s.ctu.units[c].debouncing i = true)
    (hq : (s.onUnit c fun u => u.debounced i).ctu.units[c].reading = s.ctu.units[c].reading ∨ s.ctu.units[c].entry = none) :
    auxDebounced c i s = s.onUnit c fun u => u.debounced i := by
  rw [auxDebounced_running h]
  split_ifs with hr
  · rfl
  · exact readingChanged_undefined ((onUnit_debounced_entry ..).trans (hq.resolve_left hr))

/-- A changed reading of a defined contactor goes to its state logic, and the report to TXE. -/
theorem auxDebounced_changed {e : Contactor} (h : s.ctu.units[c].debouncing i = true) (he : s.ctu.units[c].entry = some e)
    (hr : (s.onUnit c fun u => u.debounced i).ctu.units[c].reading ≠ s.ctu.units[c].reading) :
    auxDebounced c i s = takeReport c (takeReading c e (s.onUnit c fun u => u.debounced i)).2
      (takeReading c e (s.onUnit c fun u => u.debounced i)).1 := by
  rw [auxDebounced_running h, if_neg hr]
  exact readingChanged_defined ((onUnit_debounced_entry ..).trans he)

theorem readingChanged_keeps : Keeps s (readingChanged c s) := by
  unfold readingChanged
  split
  · exact .refl s
  · exact (takeReading_keeps ..).trans (takeReport_keeps ..)

theorem readingChanged_other {k : ContactorIx} (hk : k ≠ c) : (readingChanged c s).ctu.units[k] = s.ctu.units[k] := by
  cases he : s.ctu.units[c].entry with
  | none => rw [readingChanged_undefined he]
  | some e =>
    obtain ⟨x, hkept, _⟩ := takeReading_state he
    rw [readingChanged_defined he, (hkept.takeReport ..).2, setContactor_get, if_neg hk]

theorem auxDebounced_keeps : Keeps s (auxDebounced c i s) := by
  have unit : Keeps s (s.onUnit c fun u => u.debounced i) := setCtu_keeps s _
  unfold auxDebounced
  dsimp only
  split_ifs
  · exact unit
  · exact unit.trans readingChanged_keeps
  · exact .refl s

theorem auxDebounced_other {k : ContactorIx} (hk : k ≠ c) : (auxDebounced c i s).ctu.units[k] = s.ctu.units[k] := by
  have unit : (s.onUnit c fun u => u.debounced i).ctu.units[k] = s.ctu.units[k] := by rw [onUnit_get, if_neg hk]
  unfold auxDebounced
  dsimp only
  split_ifs
  · exact unit
  · rw [readingChanged_other hk, unit]
  · rfl

theorem auxDebounced_line (k : ContactorIx) : (auxDebounced c i s).ctu.line k = s.ctu.line k :=
  (Moves.auxDebounced (still := fun _ => False) c i s).line_fixed k

end

/-! ## Drift (R49, R89) -/

theorem isDrift_iff (s : State) (c : ContactorIx) :
    isDrift s c = true ↔ ∃ k, s.ctu.guard = some k ∧ ∃ p, (c, p) ∈ recRequirements (s.recordOf k) := by
  unfold isDrift
  cases s.ctu.guard with
  | none => simp
  | some k => simp [requires, List.any_eq_true]

theorem takesDrift_iff (a : ArrayState) : takesDrift a = true ↔ (∃ p, a = .active p) ∨ (∃ x n, a = .settle x n)
    ∨ (∃ x g, a = .readyUp x g) ∨ ∃ x e, a = .rampUp x e := by
  cases a <;> simp [takesDrift]

theorem haltView_of_takesDrift {s : State} (h : takesDrift s.txe.array = true) : ∃ v, haltView s = some v := by
  unfold haltView
  rcases (takesDrift_iff _).1 h with ⟨p, ha⟩ | ⟨x, n, ha⟩ | ⟨x, g, ha⟩ | ⟨x, e, ha⟩ <;> exact ⟨_, by rw [ha]⟩

theorem Dsy.forceZero_none (d : Dsy) : d.forceZero 0 = d := by
  have towers : (d.forceZero 0).towers = d.towers := vector_ext fun t => by rw [forceZero_tower, has_zero]; rfl
  calc d.forceZero 0 = { d with towers := (d.forceZero 0).towers } := rfl
    _ = d := by rw [towers]

theorem assocTowers_undefined {s : State} {c : ContactorIx} (h : s.ctu.units[c].entry = none) : assocTowers s c = 0 := by
  unfold assocTowers
  rw [h]

theorem assocTowers_defined {s : State} {c : ContactorIx} {e : Contactor} (h : s.ctu.units[c].entry = some e) :
    assocTowers s c = e.assoc.towers := by
  unfold assocTowers
  rw [h]

theorem halt_dsy {s : State} {v : HaltView} (r : HaltReason) (u : HaltSubject) (hv : haltView s = some v) :
    (halt r u s).dsy = haltOrders r s.dsy := by
  rw [halt_eq r u hv]

theorem haltOrders_drift (d : Dsy) : haltOrders .drift d = d.rampDownAll Config.muteRamp 0 := rfl

/-- The halt of a drift leaves a tower in REST there. -/
theorem halt_drift_rest {s : State} {v : HaltView} {t : TowerIx} (u : HaltSubject) (hv : haltView s = some v)
    (ht : s.dsy.towers[t].order = .rest) : (halt .drift u s).dsy.towers[t].order = .rest := by
  rw [halt_dsy .drift u hv, haltOrders_drift, (rampDownAll_spec ..).2 t, if_pos (.inr (by rw [ht]; rfl)), ht]

/-- The state that a drift of contactor c halts: the towers of its association in REST. -/
def driftForced (c : ContactorIx) (d : State) : State := d.setDsy (d.dsy.forceZero (assocTowers d c))

theorem takeDrift_taken {c : ContactorIx} {d : State} (h : takesDrift d.txe.array = true) :
    takeDrift c d = halt .drift (.contactor c) (driftForced c d) := if_pos h

theorem driftForced_undefined {c : ContactorIx} {d : State} (h : d.ctu.units[c].entry = none) : driftForced c d = d := by
  rw [driftForced, assocTowers_undefined h, Dsy.forceZero_none]
  rfl

theorem driftForced_tower {c : ContactorIx} {d : State} {e : Contactor} (h : d.ctu.units[c].entry = some e) (t : TowerIx) :
    (driftForced c d).dsy.towers[t] = if e.assoc = .tower t ∨ e.assoc = .common then { d.dsy.towers[t] with order := .rest }
      else d.dsy.towers[t] := by
  rw [driftForced, assocTowers_defined h, State.setDsy_dsy, forceZero_tower]
  simp only [has_assoc]

/-- A drift forces the towers of its contactor to zero and halts the array, which leaves them in REST. -/
theorem takeDrift_halts {c : ContactorIx} {d : State} (h : takesDrift d.txe.array = true) :
    ∃ x, (takeDrift c d).txe.array = .halted x ∧ x.reason = .drift ∧ x.subject = .contactor c
      ∧ ∀ e, d.ctu.units[c].entry = some e → ∀ t : TowerIx, e.assoc = .tower t ∨ e.assoc = .common →
          (takeDrift c d).dsy.towers[t].order = .rest := by
  obtain ⟨v, hv⟩ := haltView_of_takesDrift (s := driftForced c d) h
  obtain ⟨_, x, hx, hreason, hsubject, _⟩ := halt_record .drift (.contactor c) hv
  rw [takeDrift_taken h]
  refine ⟨x, hx, hreason, hsubject, fun e he t ht => halt_drift_rest _ hv ?_⟩
  rw [driftForced_tower he, if_pos ht]

/-! ## The exit of SWITCHING (R71) -/

@[simp] theorem has_removeIx {n : Nat} (b : BitVec n) (i j : Fin n) :
    has (removeIx b i) j = (has b j && !decide (j = i)) := by
  have hj := j.isLt
  simp only [has, removeIx, BitVec.getLsbD_and, BitVec.getLsbD_not, BitVec.getLsbD_twoPow, Fin.ext_iff, eq_comm (a := i.val)]
  simp [hj]

/-- Every contactor of the target's list stands where the list wants it. -/
def AllStand (x : TxContext) (d : State) : Prop :=
  ∀ r ∈ recRequirements (d.recordOf x.target), ∃ e, d.ctu.units[r.1].entry = some e ∧ e.state.standsAt r.2 = true

/-- A contactor of a tower that the target uses and the blend leaves travels. -/
def SomeTravels (x : TxContext) (d : State) : Prop :=
  ∃ (k : ContactorIx) (e : Contactor) (t : TowerIx), d.ctu.units[k].entry = some e ∧ e.state.travel ≠ none
    ∧ has e.assoc.towers t = true ∧ has (recTowers (d.recordOf x.target)) t = true ∧ has x.blend t = false

theorem towers_left_empty_iff (a b c : TowerSet) :
    (a &&& b &&& ~~~c == 0) = true ↔ ¬ ∃ t : TowerIx, has a t = true ∧ has b t = true ∧ has c t = false := by
  rw [beq_iff_eq, set_eq_zero]
  simp

theorem switchingDone_iff (x : TxContext) (d : State) : switchingDone x d = true ↔ AllStand x d ∧ ¬ SomeTravels x d := by
  simp only [switchingDone, Bool.and_eq_true, List.all_eq_true]
  refine and_congr (forall₂_congr fun r _ => ?_) ?_
  · unfold Ctu.stateOf
    cases d.ctu.units[r.1].entry <;> simp
  · rw [SomeTravels, not_exists]
    refine forall_congr' fun k => ?_
    cases hk : d.ctu.units[k].entry with
    | none => simp
    | some e =>
      simp only [mem_allContactors, forall_const, Bool.or_eq_true, Option.isNone_iff_eq_none, towers_left_empty_iff]
      grind

/-- Where every contactor of the list stands, the guard order finds none in DISAGREE. -/
theorem guardDrifts_of_allStand {x : TxContext} {d : State} (h : AllStand x d) : guardDrifts d x.target = [] := by
  rw [guardDrifts, List.filter_eq_nil_iff]
  intro k hk
  obtain ⟨r, hr, rfl⟩ := List.mem_map.1 hk
  obtain ⟨e, he, hstands⟩ := h r hr
  rw [Ctu.stateOf, he]
  intro hdisagree
  have : e.state = .disagree := by simpa using hdisagree
  rw [this] at hstands
  exact absurd hstands Bool.noConfusion

theorem leaveSwitching_of_allStand {x : TxContext} {d : State} (h : AllStand x d) : leaveSwitching x d
    = if x.moved then enterSettle x (setGuard (some x.target) d) else afterSettle x (setGuard (some x.target) d) := by
  have none_drifts : guardDrifts (setGuard (some x.target) d) x.target = [] := guardDrifts_of_allStand h
  unfold leaveSwitching
  dsimp only
  rw [none_drifts, List.foldl_nil]

section
variable {d : State} {x : TxContext}

theorem judgeSwitching_other (h : ∀ x, d.txe.array ≠ .switching x) : judgeSwitching d = d := by
  unfold judgeSwitching
  split
  case h_1 x hx => exact absurd hx (h x)
  all_goals rfl

theorem judgeSwitching_switching (h : d.txe.array = .switching x) :
    judgeSwitching d = if switchingDone x d then leaveSwitching x d else d := by
  unfold judgeSwitching
  rw [h]

theorem unawait_other (k : ContactorIx) (h : ∀ x, d.txe.array ≠ .switching x) : unawait k d = d := by
  unfold unawait
  split
  case h_1 x hx => exact absurd hx (h x)
  all_goals rfl

theorem unawait_switching (k : ContactorIx) (h : d.txe.array = .switching x) :
    unawait k d = d.setArray (.switching (x.settle k)) := by
  unfold unawait
  rw [h]

end

/-- Settles O32: `auxDebounced_changed` hands the new reading to the state logic, whose branches are those of `takeReading`;
`takeDrift_halts` and `switchingDone_iff` say what TXE does on the report. -/
theorem readingsMoveTheContactorStates : Obligations.ReadingsMoveTheContactorStates := by
  intro c i s hcount
  simp only [exec, execAuxDebounceExpiry, whileCounting_running hcount]
  refine ⟨fun h => congrArg _ (auxDebounced_idle h),
    fun h => ⟨fun hq => congrArg _ (auxDebounced_quiet h hq), ?_, ?_⟩, ?_, ?_⟩
  · intro e he hr
    rw [auxDebounced_changed h he hr]
    refine ⟨fun n hn => ?_, fun hstand => ?_, fun hstuck => ?_, fun hdisagree => ?_⟩
    · rw [takeReading_travelling hn]
      refine ⟨fun ha => ?_, fun hb => ?_, fun ha hb => ?_⟩
      · rw [if_pos ha]; rfl
      · rw [if_neg (by rw [hb, agrees_both]; decide), if_pos hb]; rfl
      · rw [if_neg (by rw [ha]; decide), if_neg hb]; rfl
    · rw [takeReading_standing hstand]
      refine ⟨fun ha => ?_, fun ha => ?_⟩
      · rw [if_pos ha]; rfl
      · rw [if_neg (by rw [ha]; decide)]; rfl
    · rw [takeReading_stuck hstuck]
      refine ⟨fun hb => ?_, fun hb => ?_⟩
      · rw [if_pos hb]; rfl
      · rw [if_neg hb]; rfl
    · rw [takeReading_disagree hdisagree]
      refine ⟨fun ha => ?_, fun ha => ?_⟩
      · rw [if_pos ha]
      · rw [if_neg (by rw [ha]; decide)]; rfl
  · intro t ht
    obtain rfl := Host.Outcome.next.inj ht
    have hkeeps := auxDebounced_keeps (c := c) (i := i) (s := s)
    exact ⟨fun k hk => auxDebounced_other hk, auxDebounced_line, hkeeps.rif, hkeeps.pst, hkeeps.ldu⟩
  · intro d
    refine ⟨isDrift_iff s c, takesDrift_iff _, fun h => if_neg (by rw [h]; decide), fun h => ?_, rfl, rfl, fun h => ?_,
      fun x hx => ⟨⟨removeIx x.awaited c, ?_, by simp⟩, ?_⟩⟩
    · exact ⟨driftForced c d, takeDrift_taken h, rfl, driftForced_undefined, fun e he => driftForced_tower he,
        takeDrift_halts h⟩
    · refine ⟨?_, judgeSwitching_other h⟩
      show judgeSwitching (unawait c d) = d
      rw [unawait_other c h, judgeSwitching_other h]
    · show judgeSwitching (unawait c d) = _
      rw [unawait_switching c hx]
      rfl
    · rw [judgeSwitching_switching hx]
      refine ⟨fun h => if_neg ?_, fun hstand htravel => ?_⟩
      · rw [switchingDone_iff]
        exact fun ⟨hstand, htravel⟩ => h.elim (fun hn => hn hstand) htravel
      · rw [if_pos ((switchingDone_iff ..).2 ⟨hstand, htravel⟩)]
        exact leaveSwitching_of_allStand hstand
  · intro x d
    rfl

end Sys2Proof.Machine
end

section
/-! SUPPORT. The idle step: what a quarter of a millisecond counts, and which expiries it puts. -/
namespace Sys2Proof.Machine

/-! ## Counting -/

theorem reached_iff (limit : Nat) (t : Option Nat) : reached limit t = true ↔ ∃ n, t = some n ∧ limit ≤ n := by
  cases t <;> simp [reached]

theorem ContactorState.tick_standing {x : ContactorState} (h : x.travel = none) : x.tick = x := by
  cases x with
  | toOpen n | toClosed n => cases h
  | opened | closed | stuck | disagree => rfl

theorem ArrayState.tick_other {a : ArrayState} (hs : ∀ c n, a ≠ .settle c n) (hr : ∀ c n, a ≠ .readyUp c (.awaiting n)) :
    a.tick = a := by
  cases a with
  | settle c n => exact absurd rfl (hs c n)
  | readyUp c g =>
    cases g with
    | awaiting n => exact absurd rfl (hr c n)
    | taken f => rfl
  | unset | active | rampDown | switching | rampUp | halted | muting | muted => rfl

/-- A contactor's millisecond moves its state alone, and that only while it travels. -/
theorem ContactorUnit.tick_entry (u : ContactorUnit) : (u.entry = none → u.tick.entry = none)
    ∧ ∀ e, u.entry = some e → ∃ x, u.tick.entry = some { e with state := x }
      ∧ (∀ n, e.state = .toOpen n → x = .toOpen (n + 1)) ∧ (∀ n, e.state = .toClosed n → x = .toClosed (n + 1))
      ∧ (e.state.travel = none → x = e.state) := by
  refine ⟨fun h => by rw [ContactorUnit.tick, h]; rfl, fun e he => ⟨e.state.tick, by rw [ContactorUnit.tick, he]; rfl, ?_, ?_,
    ContactorState.tick_standing⟩⟩
  · intro n h
    rw [h]
    rfl
  · intro n h
    rw [h]
    rfl

/-- A claim's millisecond counts its phase. -/
theorem Claim.tick_phase (o : Option Claim) : (o = none → o.map Claim.tick = none)
    ∧ ∀ c, o = some c → ∃ x, o.map Claim.tick = some { c with phase := x }
      ∧ (∀ n, c.phase = .loading n → x = .loading (n + 1))
      ∧ ∀ e n, c.phase = .checking e n → x = .checking e (n + 1) := by
  refine ⟨fun h => by rw [h]; rfl, fun c hc => ⟨c.tick.phase, by rw [hc]; rfl, fun n h => ?_, fun e n h => ?_⟩⟩
  · rw [Claim.tick, h]
  · rw [Claim.tick, h]

/-! ## The idle step -/

section
variable {s : State}

theorem step_idle (h : s.pending = []) : step s = .next (idle s) := by
  unfold step
  rw [h]

theorem idle_stopped (h : s.running = false) : idle s = s := if_neg (by rw [h]; exact Bool.noConfusion)

theorem idle_serves {m : Mgmt} {ms : List Mgmt} (h : s.running = true) (hq : s.cmu.queue = m :: ms) :
    idle s = s.setPending [rowOf m.code] := by
  unfold idle
  rw [if_pos h, hq]
  rfl

theorem idle_waits (h : s.running = true) (hq : s.cmu.queue = []) : idle s = if s.refclk then tick s else s := by
  unfold idle
  rw [if_pos h, hq]

/-! ## The tick -/

theorem tick_quarter (s : State) : (tick s).quarter = (s.quarter + 1) % 4 := by
  unfold tick
  dsimp only
  split <;> rfl

/-- A tick counts the loss timer and the pace, and touches neither the stores nor the queues and lines of the other blocks. -/
theorem tick_frame (s : State) : tick s = { s with
      quarter := (s.quarter + 1) % 4, rif := { s.rif with loss := s.rif.loss.map (· + 1) }, dsy := (tick s).dsy
      ctu := (tick s).ctu, txe := (tick s).txe, ldu := (tick s).ldu, mon := (tick s).mon, scu := (tick s).scu
      pending := (tick s).pending }
    ∧ (tick s).dsy = { s.dsy with
        paceLeft := s.dsy.paceLeft - 1, towers := (tick s).dsy.towers, ilkTimer := (tick s).dsy.ilkTimer } := by
  unfold tick
  dsimp only
  split <;> exact ⟨rfl, rfl⟩

/-- Within a millisecond only the loss timer and the pace count. -/
theorem tick_within (h : (tick s).quarter ≠ 0) : tick s = { tickQuarter s with pending := dueQuarter (tick s) } := by
  rw [tick_quarter] at h
  have tick_eq : tick s = { tickQuarter s with pending := dueQuarter (tickQuarter s) } := if_neg h
  rw [tick_eq]
  rfl

/-- The fourth quarter is a millisecond for every other timer. -/
theorem tick_ms (h : (tick s).quarter = 0) :
    tick s = { tickMs (tickQuarter s) with pending := dueMs (tick s) ++ dueQuarter (tick s) } := by
  rw [tick_quarter] at h
  have tick_eq : tick s = { tickMs (tickQuarter s) with
    pending := dueMs (tickMs (tickQuarter s)) ++ dueQuarter (tickMs (tickQuarter s)) } := if_pos h
  rw [tick_eq]
  rfl

theorem tick_ms_dsy (h : (tick s).quarter = 0) : (tick s).dsy = (tickQuarter s).dsy.tick := by rw [tick_ms h]; rfl

theorem tick_ms_ctu (h : (tick s).quarter = 0) :
    (tick s).ctu = { s.ctu with units := s.ctu.units.map ContactorUnit.tick } := by rw [tick_ms h]; rfl

theorem tick_ms_txe (h : (tick s).quarter = 0) : (tick s).txe = { s.txe with array := s.txe.array.tick } := by
  rw [tick_ms h]; rfl

theorem tick_ms_ldu (h : (tick s).quarter = 0) :
    (tick s).ldu = { s.ldu with claims := s.ldu.claims.map fun c => c.map Claim.tick } := by rw [tick_ms h]; rfl

theorem tick_ms_unit (h : (tick s).quarter = 0) (k : ContactorIx) : (tick s).ctu.units[k] = s.ctu.units[k].tick := by
  rw [tick_ms_ctu h, map_get]

theorem tick_ms_claim (h : (tick s).quarter = 0) (k : Target) :
    (tick s).ldu.claims[k] = s.ldu.claims[k].map Claim.tick := by rw [tick_ms_ldu h, map_get]

theorem tick_ms_tower (h : (tick s).quarter = 0) (k : TowerIx) : (tick s).dsy.towers[k]
    = { s.dsy.towers[k] with debounce := s.dsy.towers[k].debounce.map (· + 1) } := by
  rw [tick_ms_dsy h]
  exact map_get ..

end

/-! ## Expiries due -/

theorem mem_dueIf {b : Bool} {i j : Instr} : i ∈ dueIf b j ↔ b = true ∧ i = j := by
  cases b <;> simp [dueIf]

theorem dueIf_sublist (b : Bool) (i : Instr) : (dueIf b i).Sublist [i] := by
  cases b
  · exact List.nil_sublist _
  · exact .refl _

theorem ContactorUnit.travelDue_iff (u : ContactorUnit) :
    u.travelDue = true ↔ ∃ e n, u.entry = some e ∧ e.state.travel = some n ∧ e.limit ≤ n := by
  unfold ContactorUnit.travelDue
  cases u.entry <;> simp [reached_iff]

theorem settleTimeDue_iff (s : State) :
    settleTimeDue s = true ↔ ∃ c n, s.txe.array = .settle c n ∧ recSettle (s.recordOf c.target) ≤ n := by
  unfold settleTimeDue
  cases s.txe.array <;> simp

theorem gateDue_iff (s : State) :
    gateDue s = true ↔ ∃ c n, s.txe.array = .readyUp c (.awaiting n) ∧ c.joint.getD 0 ≤ n := by
  unfold gateDue
  cases s.txe.array with
  | readyUp c g => cases g <;> simp
  | unset | active | rampDown | switching | settle | rampUp | halted | muting | muted => simp

theorem holdOffDue_iff {s : State} {p : Slot} (h : s.mon.active = some p) :
    holdOffDue s = true ↔ ∃ n, s.mon.holdOff = some n ∧ recHoldOff (s.recordOf p) ≤ n := by
  unfold holdOffDue
  rw [h]
  exact reached_iff ..

theorem mem_claimDue {s : State} {k : Target} {i : Instr} : i ∈ claimDue s k ↔
    (i = .claimLapse k ∧ ∃ c n, s.ldu.claims[k] = some c ∧ c.phase = .loading n ∧ 60000 ≤ n)
    ∨ (i = .checkCompletion k ∧ ∃ c e n, s.ldu.claims[k] = some c ∧ c.phase = .checking e n ∧ 40 ≤ n) := by
  unfold claimDue
  cases s.ldu.claims[k] with
  | none => simp
  | some c =>
    cases hp : c.phase with
    | loading n =>
      dsimp only
      rw [hp]
      refine mem_dueIf.trans ?_
      rw [decide_eq_true_eq]
      simp [hp, Config.lapseMs, and_comm]
    | checking e n =>
      dsimp only
      rw [hp]
      refine mem_dueIf.trans ?_
      rw [decide_eq_true_eq]
      simp [hp, Config.checkMs, and_comm]

theorem mem_dueQuarter {s : State} {i : Instr} : i ∈ dueQuarter s ↔
    (i = .lossTimerExpiry ∧ ∃ n, s.rif.loss = some n ∧ 12 ≤ n)
    ∨ (i = .missedFrame ∧ s.dsy.paceLeft = 0 ∧ s.dsy.localPace = false)
    ∨ (i = .localPaceFrame ∧ s.dsy.paceLeft = 0 ∧ s.dsy.localPace = true) := by
  cases h : s.dsy.localPace <;> simp [dueQuarter, mem_dueIf, reached_iff, Config.lossQuarters, h, and_comm]

theorem mem_dueMs {s : State} {i : Instr} : i ∈ dueMs s ↔
    (i = .interlockQualified ∧ ∃ n, s.dsy.ilkTimer = some n ∧ 100 ≤ n)
    ∨ (∃ k, i = .cabinetDebounceExpiry k ∧ ∃ n, s.dsy.towers[k].debounce = some n ∧ 10 ≤ n)
    ∨ (∃ k, i = .auxDebounceExpiry k .showsOpen ∧ ∃ n, s.ctu.units[k].openTimer = some n ∧ 20 ≤ n)
    ∨ (∃ k, i = .auxDebounceExpiry k .showsClosed ∧ ∃ n, s.ctu.units[k].closedTimer = some n ∧ 20 ≤ n)
    ∨ (∃ k, i = .travelLimitExpiry k ∧ s.ctu.units[k].travelDue = true)
    ∨ (i = .settleTimerExpiry ∧ settleTimeDue s = true)
    ∨ (i = .gateTimerExpiry ∧ gateDue s = true)
    ∨ (∃ k, i ∈ claimDue s k)
    ∨ (i = .absenceTimerExpiry ∧ ∃ n, s.mon.absence = some n ∧ 1000 ≤ n)
    ∨ (i = .holdOffExpiry ∧ holdOffDue s = true)
    ∨ (i = .staleTimerExpiry ∧ ∃ n, s.scu.stale = some n ∧ 10000 ≤ n) := by
  simp only [dueMs, List.mem_append, List.mem_flatMap, mem_allTowers, mem_allContactors, mem_allTargets, true_and, mem_dueIf,
    reached_iff, exists_or, or_assoc, and_comm (b := i = _), Config.qualificationMs, Config.cabinetDebounceMs,
    Config.auxDebounceMs, Config.absenceMs, Config.staleMs]

theorem dueQuarter_sublist (s : State) : (dueQuarter s).Sublist quarterExpiries := by
  refine (dueIf_sublist _ .lossTimerExpiry).append ((dueIf_sublist _ _).trans ?_)
  split
  · exact List.sublist_append_right [_] [_]
  · exact List.sublist_append_left [_] [_]

theorem claimDue_sublist (s : State) (k : Target) : (claimDue s k).Sublist [.checkCompletion k, .claimLapse k] := by
  unfold claimDue
  split
  · exact List.nil_sublist _
  · split
    · exact (dueIf_sublist _ _).trans (List.sublist_append_right [_] [_])
    · exact (dueIf_sublist _ _).trans (List.sublist_append_left [_] [_])

/-- Choosing some of the expiries of each index chooses some of the whole. -/
theorem flatMap_dueIf_sublist {α : Type} (l : List α) (b : α → Bool) (f : α → Instr) :
    (l.flatMap fun a => dueIf (b a) (f a)).Sublist (l.map f) := by
  rw [List.map_eq_flatMap]
  exact List.Sublist.flatMap_right l fun a _ => dueIf_sublist _ _

theorem due_sublist (s : State) : (dueMs s ++ dueQuarter s).Sublist allExpiries := by
  have towers := flatMap_dueIf_sublist allTowers (fun t => reached Config.cabinetDebounceMs s.dsy.towers[t].debounce)
    .cabinetDebounceExpiry
  have inputs := List.Sublist.flatMap_right allContactors fun c _ =>
    (dueIf_sublist (reached Config.auxDebounceMs s.ctu.units[c].openTimer) (.auxDebounceExpiry c .showsOpen)).append
      (dueIf_sublist (reached Config.auxDebounceMs s.ctu.units[c].closedTimer) (.auxDebounceExpiry c .showsClosed))
  have travels := flatMap_dueIf_sublist allContactors (fun c => s.ctu.units[c].travelDue) .travelLimitExpiry
  have phases := (dueIf_sublist (settleTimeDue s) .settleTimerExpiry).append (dueIf_sublist (gateDue s) .gateTimerExpiry)
  have claims := List.Sublist.flatMap_right allTargets fun k _ => claimDue_sublist s k
  have monitor := ((dueIf_sublist (reached Config.absenceMs s.mon.absence) .absenceTimerExpiry).append
    (dueIf_sublist (holdOffDue s) .holdOffExpiry)).append (dueIf_sublist (reached Config.staleMs s.scu.stale) .staleTimerExpiry)
  have all := (((((((dueIf_sublist (reached Config.qualificationMs s.dsy.ilkTimer) .interlockQualified).append towers).append
    inputs).append travels).append phases).append claims).append monitor).append (dueQuarter_sublist s)
  simpa only [dueMs, allExpiries, allTowers_eq, allContactors, allTargets, List.append_assoc, List.cons_append,
    List.nil_append] using all

/-! ## The rows put -/

/-- Whether the millisecond counts or not, the loss timer's row and the frame rows are put by their own timers. -/
theorem mem_pending_quarter {t : State} {i : Instr} (hi : i ∈ quarterExpiries)
    (hp : t.pending = dueMs t ++ dueQuarter t ∨ t.pending = dueQuarter t) : i ∈ t.pending ↔ i ∈ dueQuarter t := by
  have notMs : i ∉ dueMs t := by
    rw [mem_dueMs]
    simp only [quarterExpiries, List.mem_cons, List.not_mem_nil, or_false] at hi
    rcases hi with rfl | rfl | rfl <;> simp [mem_claimDue]
  rcases hp with hp | hp
  · rw [hp, List.mem_append, or_iff_right notMs]
  · rw [hp]

theorem mem_pending_ms {t : State} {i : Instr} (hi : i ∉ quarterExpiries) (hp : t.pending = dueMs t ++ dueQuarter t) :
    i ∈ t.pending ↔ i ∈ dueMs t := by
  rw [hp, List.mem_append, or_iff_left fun h => hi ((dueQuarter_sublist t).subset h)]

theorem tick_pending (s : State) : (tick s).pending = dueMs (tick s) ++ dueQuarter (tick s)
    ∨ (tick s).pending = dueQuarter (tick s) := by
  by_cases h : (tick s).quarter = 0
  · exact .inl (congrArg State.pending (tick_ms h))
  · exact .inr (congrArg State.pending (tick_within h))

theorem tick_pending_sublist (s : State) :
    (tick s).pending.Sublist (if (tick s).quarter = 0 then allExpiries else quarterExpiries) := by
  split_ifs with h
  · rw [congrArg State.pending (tick_ms h)]
    exact due_sublist _
  · rw [congrArg State.pending (tick_within h)]
    exact dueQuarter_sublist _

/-- Settles O3: `tick_frame`, `tick_within` and `tick_ms` say what a tick counts, `mem_dueQuarter` and `mem_dueMs` which
timers at their limits put their rows. -/
theorem idleStepServesThenCountsTime : Obligations.IdleStepServesThenCountsTime := by
  intro s hempty
  rw [step_idle hempty]
  refine ⟨fun h => congrArg _ (idle_stopped h), fun m ms h hq => congrArg _ (idle_serves h hq),
    fun h hq hr => congrArg _ ((idle_waits h hq).trans (if_neg (by rw [hr]; exact Bool.noConfusion))),
    fun h hq hr => ⟨tick s, congrArg _ ((idle_waits h hq).trans (if_pos hr)), (tick_frame s).1, (tick_frame s).2,
      fun hquarter => ?_, fun hquarter => ?_, tick_pending_sublist s, ?_, ?_, ?_, fun hquarter => ?_⟩⟩
  · rw [tick_within hquarter]
    exact ⟨rfl, rfl, rfl, rfl, rfl, rfl, rfl⟩
  · refine ⟨by rw [tick_ms_dsy hquarter]; rfl, tick_ms_tower hquarter, by rw [tick_ms hquarter]; rfl,
      by rw [tick_ms hquarter]; rfl, by rw [tick_ms_ctu hquarter], fun k => ?_, fun c n ha => ?_, fun c n ha => ?_,
      fun hs hr => ?_, by rw [tick_ms_ldu hquarter], fun k => ?_⟩
    · rw [tick_ms_unit hquarter]
      exact ⟨rfl, ContactorUnit.tick_entry _⟩
    · rw [tick_ms_txe hquarter, ha]
      rfl
    · rw [tick_ms_txe hquarter, ha]
      rfl
    · rw [tick_ms_txe hquarter, ArrayState.tick_other hs hr]
    · rw [tick_ms_claim hquarter]
      exact Claim.tick_phase _
  · rw [mem_pending_quarter (by decide) (tick_pending s), mem_dueQuarter]
    simp
  · rw [mem_pending_quarter (by decide) (tick_pending s), mem_dueQuarter]
    simp
  · rw [mem_pending_quarter (by decide) (tick_pending s), mem_dueQuarter]
    simp
  · have hp := congrArg State.pending (tick_ms hquarter)
    have row : ∀ i ∉ quarterExpiries, (i ∈ (tick s).pending ↔ i ∈ dueMs (tick s)) := fun i hi => mem_pending_ms hi hp
    refine ⟨?_, fun k => ?_, fun k => ?_, fun k => ?_, fun k => ?_, ?_, ?_, fun k => ?_, fun k => ?_, ?_,
      fun p hact => ?holdOff, ?_⟩
    case holdOff =>
      rw [row _ (by simp [quarterExpiries]), mem_dueMs, ← holdOffDue_iff hact]
      simp [mem_claimDue]
    all_goals
      rw [row _ (by simp [quarterExpiries]), mem_dueMs]
      simp [mem_claimDue, ContactorUnit.travelDue_iff, settleTimeDue_iff, gateDue_iff]

end Sys2Proof.Machine
end

section
/-! SUPPORT. The laws of the Transition Engine as a predicate on TXE, and that every operation of TXE keeps them, said once per
operation. -/
namespace Sys2Proof.Machine

/-! ## The Transition History (R80, R81) -/

/-- At most 8 records, each with an end frame exactly when it is closed, and only the newest ever OPEN. -/
structure HistoryLaw (l : List HistRecord) : Prop where
  length  : l.length ≤ 8
  records : ∀ h ∈ l, h.halts ≤ 255 ∧ (h.endFrame = none ↔ h.outcome = .opened)
  older   : ∀ h ∈ l.tail, h.outcome ≠ .opened

/-- The newest record has this outcome. -/
def NewestIs (o : HistOutcome) (l : List HistRecord) : Prop := ∃ h ∈ l.head?, h.outcome = o

@[simp] theorem newestIs_nil (o : HistOutcome) : ¬ NewestIs o [] := fun ⟨_, h, _⟩ => nomatch h

@[simp] theorem newestIs_cons (o : HistOutcome) (h : HistRecord) (hs : List HistRecord) :
    NewestIs o (h :: hs) ↔ h.outcome = o := by simp [NewestIs]

/-- A new OPEN record over a history whose newest is not OPEN. -/
theorem HistoryLaw.opens {l : List HistRecord} (hl : HistoryLaw l) (hclosed : ¬ NewestIs .opened l) {r : HistRecord}
    (hopen : r.outcome = .opened) (hend : r.endFrame = none) (hhalts : r.halts ≤ 255) : HistoryLaw ((r :: l).take 8) := by
  have closed : ∀ h ∈ l, h.outcome ≠ .opened := by
    cases l with
    | nil => exact List.forall_mem_nil _
    | cons x xs => exact List.forall_mem_cons.2 ⟨by simpa using hclosed, hl.older⟩
  refine ⟨List.length_take_le .., fun h hh => ?_, fun h hh => closed h (List.mem_of_mem_take (i := 7) hh)⟩
  rcases List.mem_cons.1 (List.mem_of_mem_take hh) with rfl | hh
  · exact ⟨hhalts, by simp [hopen, hend]⟩
  · exact hl.records h hh

theorem closeNewest_law {l : List HistRecord} (hl : HistoryLaw l) {o : HistOutcome} (ho : o ≠ .opened) (f : FrameNum) :
    HistoryLaw (closeNewest o f l) ∧ ¬ NewestIs .opened (closeNewest o f l) := by
  cases l with
  | nil => exact ⟨hl, newestIs_nil _⟩
  | cons x xs =>
    rw [closeNewest]
    split_ifs with hx
    · refine ⟨⟨hl.length, List.forall_mem_cons.2 ⟨⟨(hl.records x (by simp)).1, by simp [ho]⟩, fun h hh =>
        hl.records h (List.mem_cons_of_mem _ hh)⟩, hl.older⟩, by simpa using ho⟩
    · exact ⟨hl, by simpa using hx⟩

/-- Closing an OPEN newest record gives it the outcome. -/
theorem closeNewest_newest {l : List HistRecord} (h : NewestIs .opened l) (o : HistOutcome) (f : FrameNum) :
    NewestIs o (closeNewest o f l) := by
  cases l with
  | nil => exact absurd h (newestIs_nil _)
  | cons x xs => simp [closeNewest, (newestIs_cons ..).1 h]

theorem countHalt_law {l : List HistRecord} (hl : HistoryLaw l) : HistoryLaw (countHalt l) := by
  cases l with
  | nil => exact hl
  | cons x xs =>
    exact ⟨hl.length, List.forall_mem_cons.2 ⟨⟨Nat.min_le_left .., by simp⟩, fun h hh =>
      hl.records h (List.mem_cons_of_mem _ hh)⟩, hl.older⟩

/-! ## The laws on TXE (R58, R81, R84) -/

/-- The laws of `EngineLaw` (`engineLaw_iff`). -/
structure Txe.Lawful (x : Txe) : Prop where
  armed   : x.armed.isSome = true → x.array.mayBeArmed = true
  history : HistoryLaw x.history
  opened  : x.array.recordOpen = true ↔ NewestIs .opened x.history
  active  : x.array.activeSlot.isSome = true → NewestIs .completed x.history
  halted  : ∀ c ∈ x.array.haltContext, ∃ h ∈ x.history.head?, h.seq = c.seq

theorem engineLaw_iff (s : State) : EngineLaw s ↔ s.txe.Lawful := by
  constructor
  · rintro ⟨harmed, hlength, hrecords, holder, hopened, hactive, hhalted⟩
    exact ⟨harmed, ⟨hlength, hrecords, holder⟩, hopened, hactive, hhalted⟩
  · rintro ⟨harmed, ⟨hlength, hrecords, holder⟩, hopened, hactive, hhalted⟩
    exact ⟨harmed, hlength, hrecords, holder, hopened, hactive, hhalted⟩

/-- TXE between two array states: nothing armed, the history lawful, its newest record OPEN or not as `record` says. -/
structure Txe.Between (x : Txe) (record : Bool) : Prop where
  armed   : x.armed = none
  history : HistoryLaw x.history
  opened  : record = true ↔ NewestIs .opened x.history

namespace Txe.Between

variable {x : Txe} {b : Bool}

/-- The array enters a state whose record stands as it should, and which is neither ACTIVE nor HALTED. -/
theorem enter (h : x.Between b) (a : ArrayState) (hrecord : a.recordOpen = b) (hactive : a.activeSlot = none)
    (hhalt : a.haltContext = none) : ({ x with array := a } : Txe).Lawful := by
  refine ⟨fun ha => ?_, h.history, ?_, fun hs => ?_, fun c hc => ?_⟩
  · rw [h.armed] at ha; cases ha
  · rw [← h.opened, hrecord]
  · rw [hactive] at hs; cases hs
  · rw [hhalt] at hc; cases hc

/-- The array enters a phase of a transition. -/
theorem phase (h : x.Between true) {a : ArrayState} {c : TxContext} (hc : a.context = some c) :
    ({ x with array := a } : Txe).Lawful := by
  cases a <;> first | (cases hc; done) | exact h.enter _ rfl rfl rfl

theorem setArray (h : x.Between b) (a : ArrayState) : ({ x with array := a } : Txe).Between b := ⟨h.armed, h.history, h.opened⟩

/-- The newest record is closed. -/
theorem close (h : x.Between b) {o : HistOutcome} (ho : o ≠ .opened) (f : FrameNum) :
    ({ x with history := closeNewest o f x.history } : Txe).Between false :=
  have hl := closeNewest_law h.history ho f
  ⟨h.armed, hl.1, iff_of_false Bool.noConfusion hl.2⟩

/-- A record is opened. -/
theorem opens {s : State} (h : s.txe.Between false) (cause : Cause) (source : Option Slot) (target : Slot) (mode : Mode)
    (joint : Bool) (start : FrameNum) : (openRecord cause source target mode joint start s).txe.Between true :=
  ⟨h.armed, h.history.opens (fun hn => nomatch h.opened.2 hn) rfl rfl (Nat.zero_le _),
    iff_of_true rfl ((newestIs_cons ..).2 rfl)⟩

end Txe.Between

namespace Txe.Lawful

section
variable {x : Txe}

theorem reset : Txe.reset.Lawful := (engineLaw_iff State.reset).1 (by decide)

theorem unarmed (h : x.Lawful) (ha : x.array.mayBeArmed = false) : x.armed = none := by
  cases hx : x.armed with
  | none => rfl
  | some a => exact absurd (h.armed (by rw [hx]; rfl)) (by rw [ha]; exact Bool.noConfusion)

theorem between (h : x.Lawful) (ha : x.armed = none) : x.Between x.array.recordOpen := ⟨ha, h.history, h.opened⟩

/-- In a phase nothing is armed and the record stands OPEN. -/
theorem inPhase (h : x.Lawful) {c : TxContext} (hc : x.array.context = some c) : x.Between true := by
  have hm : x.array.mayBeArmed = false := by
    cases ha : x.array <;> rw [ha] at hc <;> first | rfl | cases hc
  have hr : x.array.recordOpen = true := by rw [ArrayState.recordOpen, hc]; rfl
  exact hr ▸ h.between (h.unarmed hm)

/-- Where no transition and no halt stands the newest record is closed. -/
theorem mutes (h : x.Lawful) (ha : x.armed = none) (hr : x.array.recordOpen = false) : x.Between false :=
  hr ▸ h.between ha

/-- The Armed Request is removed. -/
theorem disarm (h : x.Lawful) : ({ x with armed := none } : Txe).Lawful :=
  ⟨fun ha => (nomatch ha), h.history, h.opened, h.active, h.halted⟩

/-- A request is armed where one may stand. -/
theorem armedAt (h : x.Lawful) (ha : x.array.mayBeArmed = true) (a : Option Armed) : ({ x with armed := a } : Txe).Lawful :=
  ⟨fun _ => ha, h.history, h.opened, h.active, h.halted⟩

theorem setFrame (h : x.Lawful) (f : Option FrameNum) : ({ x with frame := f } : Txe).Lawful :=
  ⟨h.armed, h.history, h.opened, h.active, h.halted⟩

/-- The array state changes within what the laws speak of. -/
theorem setArray (h : x.Lawful) {a : ArrayState} (hmay : x.array.mayBeArmed = true → a.mayBeArmed = true)
    (hrecord : a.recordOpen = x.array.recordOpen) (hactive : a.activeSlot = x.array.activeSlot)
    (hhalt : a.haltContext.map (·.seq) = x.array.haltContext.map (·.seq)) : ({ x with array := a } : Txe).Lawful := by
  refine ⟨fun ha => hmay (h.armed ha), h.history, hrecord ▸ h.opened, fun ha => h.active (hactive ▸ ha), fun c hc => ?_⟩
  have hseq : x.array.haltContext.map (·.seq) = some c.seq := by rw [← hhalt, Option.mem_def.1 hc]; rfl
  obtain ⟨d, hd, hdc⟩ := Option.map_eq_some_iff.1 hseq
  exact hdc ▸ h.halted d hd

theorem tick (h : x.Lawful) : ({ x with array := x.array.tick } : Txe).Lawful := by
  cases ha : x.array with
  | readyUp c g => cases g <;> exact h.setArray (by rw [ha]; exact id) (by rw [ha]; rfl) (by rw [ha]; rfl) (by rw [ha]; rfl)
  | _ => exact h.setArray (by rw [ha]; exact id) (by rw [ha]; rfl) (by rw [ha]; rfl) (by rw [ha]; rfl)

/-- A resume pattern is dropped. -/
theorem unmute (h : x.Lawful) {r : Option Slot} (ha : x.array = .muted r) : ({ x with array := .muted none } : Txe).Lawful :=
  h.setArray (fun _ => rfl) (by rw [ha]; rfl) (by rw [ha]; rfl) (by rw [ha]; rfl)

/-- RESTART leaves UNSET with its newest record closed (R57). -/
theorem restart (h : x.Lawful) : x.restart.Lawful :=
  (h.disarm.between rfl).close (o := .abandoned) (by decide) x.now |>.enter .unset rfl rfl rfl

/-- A halt is taken in ACTIVE and in the phases, where a record stands. -/
theorem halts (h : x.Lawful) (hv : x.array.activeSlot.isSome = true ∨ x.array.recordOpen = true) (k : HaltContext)
    (hk : k.seq = x.newestSeq) :
    ({ x with array := .halted k, armed := none, history := countHalt x.history } : Txe).Lawful := by
  have hrecord : ∃ r rs, x.history = r :: rs := by
    have hnewest : ∃ o, NewestIs o x.history := hv.elim (fun ha => ⟨_, h.active ha⟩) fun ho => ⟨_, h.opened.1 ho⟩
    cases hx : x.history with
    | nil => obtain ⟨o, ho⟩ := hx ▸ hnewest; exact absurd ho (newestIs_nil _)
    | cons r rs => exact ⟨r, rs, rfl⟩
  obtain ⟨r, rs, hr⟩ := hrecord
  have hseq : k.seq = r.seq := by rw [hk, Txe.newestSeq, hr]; rfl
  refine ⟨fun ha => (nomatch ha), countHalt_law h.history, iff_of_true rfl ?_, fun ha => (nomatch ha), fun c hc => ?_⟩
  · rw [hr]; exact (newestIs_cons ..).2 rfl
  · cases hc
    rw [hr]
    exact ⟨_, rfl, hseq.symm⟩

end

variable {s t : State}

theorem keepsTxe (h : s.txe.Lawful) (ht : t.txe = s.txe) : t.txe.Lawful := ht ▸ h

theorem ite {p : Prop} [Decidable p] (h : s.txe.Lawful) (k : t.txe.Lawful) : (if p then s else t).txe.Lawful := by
  split
  · exact h
  · exact k

/-! ### Requests and reports -/

theorem withdraw (h : s.txe.Lawful) (r : WithdrawReason) : (withdraw r s).txe.Lawful := by
  rw [withdraw_txe]; exact h.disarm

/-- TXE arms a request of SCU or MON in ACTIVE only (R62). -/
theorem request (h : s.txe.Lawful) (k : Slot) (m : ReqMode) (f : Option FrameNum) (c : Cause) :
    (request k m f c s).1.txe.Lawful := by
  unfold Machine.request
  split
  · rename_i ha
    split
    · exact h
    · split
      · exact h.armedAt (by rw [ha]; rfl) _
      · exact h
  all_goals exact h

theorem settleDue (h : s.txe.Lawful) (o : Occurrence) (a : ReqAnswer) : (settleDue o a s).txe.Lawful := by
  refine h.keepsTxe ?_
  simp only [Machine.settleDue, raiseDue_txe, apply_ite State.txe, State.setScu_txe, defer_txe, ite_self]

theorem actOn (h : s.txe.Lawful) (o : Occurrence) (f : Option FrameNum) : (actOn o f s).txe.Lawful := by
  unfold Machine.actOn
  split
  · exact h
  · exact (h.request ..).settleDue ..

theorem tellActive (h : s.txe.Lawful) (p : Slot) : (tellActive p s).txe.Lawful := by
  unfold Machine.tellActive offerDeferred
  split
  · exact h
  · refine actOn ?_ ..
    exact h

theorem tellStopped (h : s.txe.Lawful) : (tellStopped s).txe.Lawful := h.keepsTxe (tellStopped_txe s)

/-! ### Transitions -/

theorem halt (h : s.txe.Lawful) (r : HaltReason) (u : HaltSubject) : (halt r u s).txe.Lawful := by
  cases hv : haltView s with
  | none => unfold Machine.halt; rw [hv]; exact h
  | some v =>
    rw [halt_eq r u hv]
    refine h.halts ?_ _ rfl
    unfold haltView at hv
    cases ha : s.txe.array <;> rw [ha] at hv <;> first | exact .inl rfl | exact .inr rfl | cases hv

theorem noteAtRest (h : s.txe.Lawful) {k : HaltContext} (ha : s.txe.array = .halted k) : (noteAtRest k s).txe.Lawful :=
  h.setArray (fun _ => rfl) (by rw [ha]; rfl) (by rw [ha]; rfl) (by rw [ha]; rfl)

theorem takeDrift (h : s.txe.Lawful) (c : ContactorIx) : (takeDrift c s).txe.Lawful := by
  unfold Machine.takeDrift
  split
  · refine halt ?_ ..
    exact h
  · exact h

theorem takeDrifts (l : List ContactorIx) (h : s.txe.Lawful) :
    (l.foldl (fun s k => Machine.takeDrift k s) s).txe.Lawful := by
  induction l generalizing s with
  | nil => exact h
  | cons k l ih => exact ih (h.takeDrift k)

end Txe.Lawful

namespace Txe.Between

variable {s : State}

theorem startRampUp (h : s.txe.Between true) (c : TxContext) : (startRampUp c s).txe.Lawful := by
  have hp : (s.setArray (.rampUp c 0)).txe.Lawful := h.phase rfl
  unfold Machine.startRampUp
  split
  · exact hp.halt ..
  · exact hp

theorem enterReadyUp (h : s.txe.Between true) (c : TxContext) (g : Nat) : (enterReadyUp c g s).txe.Lawful := h.phase rfl

theorem afterSettle (h : s.txe.Between true) (c : TxContext) : (afterSettle c s).txe.Lawful := by
  unfold Machine.afterSettle
  split
  · exact h.enterReadyUp ..
  · exact h.startRampUp c

theorem enterSettle (h : s.txe.Between true) (c : TxContext) : (enterSettle c s).txe.Lawful :=
  .ite (afterSettle (h.setArray _) c) (h.phase rfl)

theorem leaveSwitching (h : s.txe.Between true) (c : TxContext) : (leaveSwitching c s).txe.Lawful :=
  .takeDrifts _ (.ite (enterSettle (s := setGuard (some c.target) s) h c) (afterSettle (s := setGuard (some c.target) s) h c))

end Txe.Between

theorem Txe.Lawful.judgeSwitching {s : State} (h : s.txe.Lawful) : (judgeSwitching s).txe.Lawful := by
  unfold Machine.judgeSwitching
  split
  next c ha => exact .ite ((h.inPhase (by rw [ha]; rfl)).leaveSwitching c) h
  all_goals exact h

namespace Txe.Between

variable {s : State}

theorem enterSwitching (h : s.txe.Between true) (c : TxContext) : (enterSwitching c s).txe.Lawful := by
  obtain ⟨htxe, _⟩ := giveMoves_spec s (recRequirements (s.recordOf c.target)) { c with awaited := 0, moved := false }
  rw [← htxe] at h
  have hp := h.phase (a := .switching (giveMoves (recRequirements (s.recordOf c.target))
    { c with awaited := 0, moved := false } s).1) rfl
  unfold Machine.enterSwitching
  dsimp only
  split
  · exact Txe.Lawful.halt hp ..
  · exact Txe.Lawful.judgeSwitching hp

theorem enterRampDown (h : s.txe.Between true) (c : TxContext) : (enterRampDown c s).txe.Lawful :=
  .ite (enterSwitching (h.setArray (.rampDown c)) c) (h.phase rfl)

/-- Every start opens its record and enters RAMP_DOWN (R65, R92, R102). -/
theorem launch (h : s.txe.Between false) (c : TxContext) (f : FrameNum) : (launch c f s).txe.Lawful :=
  enterRampDown (s := setGuard none (openRecord c.cause c.source c.target c.mode c.joint.isSome f s)) (h.opens ..) c

/-- The transition completes: its OPEN record closes COMPLETED, which ACTIVE asks for (R74). -/
theorem complete (h : s.txe.Between true) (c : TxContext) : (complete c s).txe.Lawful := by
  have hclosed := h.close (o := .completed) (by decide) s.txe.now
  have hp : ({ s.txe with array := .active c.target, history := closeNewest .completed s.txe.now s.txe.history }
      : Txe).Lawful :=
    ⟨fun ha => absurd ha (by rw [h.armed]; exact Bool.noConfusion), hclosed.history, hclosed.opened,
      fun _ => closeNewest_newest (h.opened.1 rfl) _ _, fun k hk => nomatch hk⟩
  unfold Machine.complete
  refine Txe.Lawful.tellActive ?_ _
  unfold raiseCompleted
  split <;> exact hp

theorem enterMuted (h : s.txe.Between false) (x : MutedCause) (r : Option Slot) : (enterMuted x r s).txe.Lawful :=
  Txe.Lawful.tellStopped (s := (s.setArray (.muted r)).raise .muted _ _) (h.enter _ rfl rfl rfl)

theorem muteTowers (h : s.txe.Between false) (len : Nat) : (muteTowers len s).txe.Lawful := by
  have hmuting : (s.setArray .muting).txe.Lawful := h.enter .muting rfl rfl rfl
  unfold Machine.muteTowers
  dsimp only
  generalize s.dsy.rampDownAll len 0 = d
  exact .ite (enterMuted (s := s.setDsy d) h _ _) hmuting

end Txe.Between

namespace Txe.Lawful

variable {s : State}

/-- The armed transition starts; out of HALTED the halted record closes first (R65). -/
theorem startArmed (h : s.txe.Lawful) {a : Armed} (ha : s.txe.armed = some a) (f : FrameNum) :
    (startArmed a f s).txe.Lawful := by
  have hmay : s.txe.array.mayBeArmed = true := h.armed (by rw [ha]; rfl)
  have hb := h.disarm.between rfl
  refine Txe.Between.launch ?_ _ f
  unfold abandonHalted
  split
  next => exact hb.close (by decide) f
  all_goals
    next harray =>
      have hrecord : s.txe.array.recordOpen = false := by
        rw [show s.txe.array = _ from harray] at hmay ⊢
        first | rfl | cases hmay
      exact hrecord ▸ hb

theorem takeRampEnds (h : s.txe.Lawful) (l : List (TowerIx × RampEnd)) : (takeRampEnds l s).txe.Lawful := by
  unfold Machine.takeRampEnds
  split
  next c e ha =>
    have hb := h.inPhase (c := c) (by rw [ha]; rfl)
    exact .ite (hb.complete c) (hb.phase rfl)
  all_goals exact h

theorem takeAtRest (h : s.txe.Lawful) : (takeAtRest s).txe.Lawful := by
  unfold Machine.takeAtRest
  split
  next c ha => exact .ite ((h.inPhase (c := c) (by rw [ha]; rfl)).enterSwitching c) h
  next ha =>
    have hb : s.txe.Between false := h.mutes (h.unarmed (by rw [ha]; rfl)) (by rw [ha]; rfl)
    exact .ite (hb.enterMuted ..) h
  next k ha => exact .ite (h.noteAtRest ha) h
  all_goals exact h

theorem frameEvent (h : s.txe.Lawful) (n : FrameNum) (b : Bool) : (frameEvent n b s).txe.Lawful := by
  have h1 : (s.setTxe { s.txe with frame := some n }).txe.Lawful := h.setFrame _
  unfold Machine.frameEvent
  dsimp only
  split
  next a ha => exact .ite (h1.withdraw _) (.ite (h1.startArmed ha n) (.ite h1 (h1.withdraw _)))
  next =>
    split
    next c f ha =>
      have hb := h1.inPhase (c := c) (by rw [ha]; rfl)
      exact .ite (hb.startRampUp c) (.ite h1 (hb.enterReadyUp ..))
    all_goals exact h1

theorem ringFrame (h : s.txe.Lawful) (f : FrameSource) (b : Bool) : (ringFrame f b s).txe.Lawful :=
  (((h.frameEvent ..).keepsTxe (writeFrames_txe f _)).takeAtRest).takeRampEnds _

/-! ### Reports, losses and mutes -/

theorem unawait (h : s.txe.Lawful) (k : ContactorIx) : (unawait k s).txe.Lawful := by
  unfold Machine.unawait
  split
  next c ha => exact (h.inPhase (c := c) (by rw [ha]; rfl)).phase rfl
  all_goals exact h

theorem takeReport (h : s.txe.Lawful) (k : ContactorIx) (r : CtuReport) : (takeReport k r s).txe.Lawful := by
  unfold Machine.takeReport
  split
  · exact h
  · exact (h.unawait k).judgeSwitching
  · exact (h.unawait k).judgeSwitching
  · exact .ite (h.takeDrift k) h.judgeSwitching

theorem takeStuck (h : s.txe.Lawful) (k : ContactorIx) : (takeStuck k s).txe.Lawful := by
  unfold Machine.takeStuck
  split
  · exact h.halt ..
  all_goals exact h

theorem takeCabinetLoss (h : s.txe.Lawful) (t : TowerIx) : (takeCabinetLoss t s).txe.Lawful := by
  unfold Machine.takeCabinetLoss
  split
  · exact .ite (h.halt ..) h
  all_goals exact h

theorem takeLost (h : s.txe.Lawful) : (takeLost s).txe.Lawful := by
  unfold Machine.takeLost
  cases ha : s.txe.array <;> dsimp only
  case active p =>
    refine Txe.Between.enterMuted (s := setGuard none (Machine.withdraw .ring s)) ?_ _ _
    exact (h.withdraw .ring).mutes (withdraw_armed ..) (by rw [withdraw_txe]; exact congrArg ArrayState.recordOpen ha)
  case muting =>
    exact (h.mutes (h.unarmed (by rw [ha]; rfl)) (by rw [ha]; rfl)).enterMuted ..
  case unset | muted | halted => exact h
  all_goals exact h.halt ..

theorem takeRegain (h : s.txe.Lawful) : (takeRegain s).txe.Lawful := by
  unfold Machine.takeRegain
  split
  next p ha =>
    have hb : s.txe.Between false := h.mutes (h.unarmed (by rw [ha]; rfl)) (by rw [ha]; rfl)
    exact Txe.Between.launch (s := s.setArray (.muted none)) (hb.setArray _) ..
  all_goals exact h

theorem takeInterlock (h : s.txe.Lawful) : (takeInterlock s).txe.Lawful := by
  have h1 := h.withdraw .interlock
  have hunarmed := withdraw_armed s .interlock
  unfold Machine.takeInterlock
  dsimp only
  generalize Machine.withdraw .interlock s = u at h1 hunarmed
  cases ha : u.txe.array <;> dsimp only
  case active =>
    exact Txe.Between.enterMuted (s := setGuard none u) (h1.mutes hunarmed (by rw [ha]; rfl)) ..
  case muting => exact (h1.mutes hunarmed (by rw [ha]; rfl)).enterMuted ..
  case muted => exact h1.unmute ha
  case unset | halted => exact h1
  all_goals exact h1.halt ..

/-- MUTE takes the array down after the Armed Request is withdrawn (R94 to R97). -/
theorem muteArray (h : s.txe.Lawful) (hunarmed : s.txe.armed = none) (len : Nat) : (muteArray len s).txe.Lawful := by
  have hclosed := (h.between hunarmed).close (o := .muted) (by decide) s.txe.now
  unfold Machine.muteArray
  cases ha : s.txe.array <;> dsimp only
  case unset | muting => exact h
  case muted => exact h.unmute ha
  case active => exact Txe.Between.muteTowers (s := setGuard none s) (h.mutes hunarmed (by rw [ha]; rfl)) len
  case halted => exact Txe.Between.muteTowers (s := closeRecord .muted s.txe.now s) hclosed len
  all_goals exact Txe.Between.muteTowers (s := setGuard none (closeRecord .muted s.txe.now s)) hclosed len

end Txe.Lawful
end Sys2Proof.Machine
end

section
/-! SUPPORT. Schedule, monitor, ring, pins, loading and commands keep the laws of the Transition Engine. -/
namespace Sys2Proof.Machine

/-! ### The request of SWITCH (R60) -/

/-- The array state once a SWITCH has armed: MUTED loses its resume pattern (R60, R101). -/
def ArrayState.unmuted (a : ArrayState) : ArrayState := if a.resume.isSome then .muted none else a

theorem ArrayState.unmuted_muted (r : Option Slot) : (ArrayState.muted r).unmuted = .muted none := by cases r <;> rfl

theorem ArrayState.unmuted_other {a : ArrayState} (h : ∀ r, a ≠ .muted r) : a.unmuted = a := by
  cases a <;> first | rfl | exact absurd rfl (h _)

theorem ArrayState.unmuted_mayBeArmed {a : ArrayState} (h : a.inFlight = false) : a.unmuted.mayBeArmed = true := by
  cases a with
  | muted r => rw [unmuted_muted]; rfl
  | _ => first | rfl | cases h

theorem ArrayState.unmuted_same (a : ArrayState) : a.unmuted.recordOpen = a.recordOpen ∧ a.unmuted.activeSlot = a.activeSlot
    ∧ a.unmuted.haltContext = a.haltContext := by
  cases a with
  | muted r => rw [unmuted_muted]; exact ⟨rfl, rfl, rfl⟩
  | _ => exact ⟨rfl, rfl, rfl⟩

/-- A request armed: the older one removed with ARMED_WITHDRAWN (REPLACED), the resume pattern dropped (R60, R61). -/
theorem arm_eq (a : Armed) (s : State) : arm a s
    = (s.setTxe { s.txe with armed := some a, array := s.txe.array.unmuted }).setCmu
        (s.cmu.enterAll (withdrawnNotice 1 s)) := by
  unfold arm
  rw [withdraw_eq]
  dsimp only [State.setArmed, State.setTxe, State.setCmu]
  cases ha : s.txe.array with
  | muted r => rw [ArrayState.unmuted_muted]; rfl
  | _ => simp [ArrayState.unmuted, ArrayState.resume, WithdrawReason.code]

/-- Checks 1 to 4 of R60 pass. -/
theorem switchRefusal_none {p : SwitchParams} {s : State} (h : switchRefusal p s = none) :
    s.pst.isValid p.target = true ∧ s.dsy.ilkClosed = true ∧ s.txe.array.inFlight = false
      ∧ ¬ (p.mode = .blend ∧ blendBarred s p.target = true) := by
  unfold switchRefusal at h
  split_ifs at h with hvalid hclosed hflight hbarred
  exact ⟨by simpa using hvalid, by simpa using hclosed, by simpa using hflight, hbarred⟩

namespace Txe.Lawful

variable {s t : State}

/-! ### Updates of other blocks -/

theorem setRif (h : s.txe.Lawful) (b : Rif) : (s.setRif b).txe.Lawful := h
theorem setDsy (h : s.txe.Lawful) (b : Dsy) : (s.setDsy b).txe.Lawful := h
theorem setCtu (h : s.txe.Lawful) (b : Ctu) : (s.setCtu b).txe.Lawful := h
theorem setMon (h : s.txe.Lawful) (b : Mon) : (s.setMon b).txe.Lawful := h
theorem setScu (h : s.txe.Lawful) (b : Scu) : (s.setScu b).txe.Lawful := h
theorem raise (h : s.txe.Lawful) (k : NoticeKind) (u : Option (BitVec 8)) (d : List Word) : (s.raise k u d).txe.Lawful := h

/-! ### Schedule and monitor -/

theorem takeOccurrence (h : s.txe.Lawful) (x : Occurrence) : (takeOccurrence x s).txe.Lawful := by
  refine ite ?_ (h.actOn ..)
  unfold holdDue
  split <;> exact h

theorem fallDue (h : s.txe.Lawful) (xs : List Occurrence) : (fallDue xs s).txe.Lawful := by
  induction xs generalizing s with
  | nil => exact h
  | cons x xs ih =>
    cases xs with
    | nil => exact h.takeOccurrence x
    | cons y ys => exact ih (s := raiseDue x .missed .earlier none s) h

theorem crossClock (h : s.txe.Lawful) (d0 : Date) (t0 n : Nat) (d1 : Date) (t1 : Nat) :
    (crossClock d0 t0 n d1 t1 s).txe.Lawful :=
  have h1 := h.setScu (s.scu.setClock d1 t1)
  have h2 := ite (p := n = 2) (h1.raise .clockSet none (twoWords (timestamp d1 t1) ++ [word n])) h1
  ite h2 (ite (h2.fallDue _) (h1.raise ..))

theorem takeTime (h : s.txe.Lawful) (b : TimeBody) : (takeTime b s).txe.Lawful := by
  refine ite ?_ h
  split
  · exact h
  · exact h.crossClock ..
  · exact h.crossClock ..

theorem holdOff (h : s.txe.Lawful) (b : Bool) : (holdOff b s).txe.Lawful := by
  refine ite ?_ h
  split
  · exact h
  · exact ite ((h.setScu _).actOn ..) h

theorem holdOn (h : s.txe.Lawful) : (holdOn s).txe.Lawful := by
  refine ite h ?_
  split <;> exact h

theorem staleExpiry (h : s.txe.Lawful) : (staleExpiry s).txe.Lawful := by
  unfold Machine.staleExpiry
  split <;> exact h

/-- The fault action arms a fallback as TXE allows (R62, R114). -/
theorem takeFaultAction (h : s.txe.Lawful) (w : Nat → Word) : (takeFaultAction w s).1.txe.Lawful := by
  unfold Machine.takeFaultAction
  split
  · exact h
  · split
    · exact h
    · exact (h.request ..).setMon _

theorem judgeTower (h : s.txe.Lawful) (w : Nat → Word) (t : TowerIx) (r : Nat) (m : Int) (q : BitVec 8) :
    (judgeTower w t r m q s).txe.Lawful := by
  have fault : (declareFault w t r m q s).txe.Lawful :=
    takeFaultAction (s := setStatus t .fault (recGrace w) s) h w
  exact ite (ite h h) (ite h (ite fault h))

theorem trimTower (h : s.txe.Lawful) (w : Nat → Word) (k : Slot) (t : TowerIx) (r : Nat) (m : Int) :
    (trimTower w k t r m s).txe.Lawful := by
  refine ite h ?_
  show (noticeLimit w k t _ _ s).txe.Lawful
  unfold noticeLimit
  split
  · exact h
  · exact ite h h

theorem evaluateTower (h : s.txe.Lawful) (w : Nat → Word) (k : Slot) (r : MonRecord) (t : TowerIx) :
    (evaluateTower w k r s t).txe.Lawful := ite ((h.judgeTower ..).trimTower ..) h

theorem evaluate (h : s.txe.Lawful) (r : MonRecord) : (evaluate r s).txe.Lawful := by
  unfold Machine.evaluate
  split
  · exact h
  next p hp =>
    refine ite ?_ h
    generalize s.recordOf p = w
    clear hp
    induction allTowers generalizing s with
    | nil => exact h
    | cons t l ih => exact ih (h.evaluateTower ..)

theorem takeRecord (h : s.txe.Lawful) (rx : Rx) : (takeRecord rx s).txe.Lawful := by
  unfold Machine.takeRecord
  split
  · exact h
  next r _ =>
    have taken : (recordTaken r s).txe.Lawful := ite h h
    exact ite taken (taken.evaluate r)

theorem absenceExpiry (h : s.txe.Lawful) : (absenceExpiry s).txe.Lawful := ite h h

/-! ### The ring -/

theorem enterGood (h : s.txe.Lawful) : (enterGood s).txe.Lawful :=
  ite (p := s.rif.lossSinceGood = true) (((h.setRif _).takeRegain).raise ..) h

theorem receiveSample (h : s.txe.Lawful) (rx : Rx) : (receiveSample rx s).txe.Lawful := by
  unfold Machine.receiveSample
  split
  next f _ =>
    have entered := ite (p := s.rif.recv ≠ .good ∧ (s.rif.takeValid f.number rx).recv = .good)
      (h.setRif (s.rif.takeValid f.number rx)).enterGood (h.setRif (s.rif.takeValid f.number rx))
    exact ite entered ((entered.setDsy _).ringFrame ..)
  next => exact ite h (((h.setRif _).setDsy _).ringFrame ..)

theorem missFrame (h : s.txe.Lawful) : (missFrame s).txe.Lawful := ite h (((h.setRif _).setDsy _).ringFrame ..)

theorem localFrame (h : s.txe.Lawful) : (localFrame s).txe.Lawful := ite (h.setDsy _).takeAtRest h

theorem lossExpiry (h : s.txe.Lawful) : (lossExpiry s).txe.Lawful :=
  ite h (((((h.setRif _).setDsy _).takeLost.raise ..).setRif _).takeAtRest)

theorem receiveMgmt (h : s.txe.Lawful) (rx : Rx) : (receiveMgmt rx s).txe.Lawful := by
  unfold Machine.receiveMgmt
  split
  · exact ite (ite h h) h
  · exact h

theorem receiveTime (h : s.txe.Lawful) (rx : Rx) : (receiveTime rx s).txe.Lawful := by
  unfold Machine.receiveTime
  split
  · exact ite (takeTime (s := passMessage rx s) h _) h
  · exact h

theorem receiveRelease (h : s.txe.Lawful) (rx : Rx) : (receiveRelease rx s).txe.Lawful := ite (ite (ite h h) h) h

theorem receiveEmpty (h : s.txe.Lawful) (rx : Rx) : (receiveEmpty rx s).txe.Lawful := ite h h

/-! ### Pins and timers -/

theorem ilkLineOpen (h : s.txe.Lawful) : (ilkLineOpen s).txe.Lawful := by
  refine ite ?_ h
  unfold interlockOpens
  exact ((((h.setDsy _).setDsy _).raise ..).setDsy _).takeInterlock.takeAtRest

theorem ilkQualified (h : s.txe.Lawful) : (ilkQualified s).txe.Lawful := ite h h

theorem rdyDebounced (h : s.txe.Lawful) (t : TowerIx) : (rdyDebounced t s).txe.Lawful :=
  ite (ite h (((h.setDsy _).raise ..).takeCabinetLoss t)) h

theorem readingChanged (h : s.txe.Lawful) (c : ContactorIx) : (readingChanged c s).txe.Lawful := by
  unfold Machine.readingChanged
  split
  · exact h
  · exact (h.keepsTxe (UsesValid.takeReading_txe ..)).takeReport ..

theorem auxDebounced (h : s.txe.Lawful) (c : ContactorIx) (i : AuxInput) : (auxDebounced c i s).txe.Lawful :=
  have h1 : (s.onUnit c fun u => u.debounced i).txe.Lawful := h
  ite (ite h1 (h1.readingChanged c)) h

theorem travelExpired (h : s.txe.Lawful) (c : ContactorIx) : (travelExpired c s).txe.Lawful := by
  unfold Machine.travelExpired
  split
  · exact h
  · split
    · exact ((h.setCtu _).raise ..).takeStuck c
    · exact h

theorem settleExpired (h : s.txe.Lawful) : (settleExpired s).txe.Lawful := by
  unfold Machine.settleExpired
  split
  next c _ ha => exact (h.inPhase (c := c) (by rw [ha]; rfl)).afterSettle c
  all_goals exact h

theorem gateExpired (h : s.txe.Lawful) : (gateExpired s).txe.Lawful := by
  unfold Machine.gateExpired
  split
  · exact h.halt ..
  all_goals exact h

/-! ### Commands of TXE -/

theorem arm (h : s.txe.Lawful) (hflight : s.txe.array.inFlight = false) (a : Armed) : (Machine.arm a s).txe.Lawful := by
  have hmay := ArrayState.unmuted_mayBeArmed hflight
  have hrest := s.txe.array.unmuted_same
  rw [arm_eq]
  exact (h.setArray (fun _ => hmay) hrest.1 hrest.2.1 (congrArg _ hrest.2.2)).armedAt hmay _

theorem switchBody (h : s.txe.Lawful) (m : Mgmt) : (switchBody m s).1.txe.Lawful := by
  unfold Machine.switchBody
  dsimp only
  split
  · exact h
  next hr =>
    split
    · exact h
    · split
      · exact h
      · exact h.arm (switchRefusal_none hr).2.2.1 _

theorem withdrawBody (h : s.txe.Lawful) (m : Mgmt) : (withdrawBody m s).1.txe.Lawful := by
  unfold Machine.withdrawBody
  split
  · exact h
  · exact h.disarm

theorem goBody (h : s.txe.Lawful) (m : Mgmt) : (goBody m s).1.txe.Lawful := by
  unfold Machine.goBody
  split
  next c _ ha =>
    split
    · exact h
    · exact (h.inPhase (c := c) (by rw [ha]; rfl)).phase rfl
  all_goals exact h

/-- In HALTED the record stands OPEN, and nothing is armed once a request is withdrawn. -/
theorem withdrawHalted (h : s.txe.Lawful) {k : HaltContext} (ha : s.txe.array.haltContext = some k) (r : WithdrawReason) :
    (Machine.withdraw r s).txe.Between true := by
  have hr : (Machine.withdraw r s).txe.array.recordOpen = true := by
    rw [withdraw_txe, ArrayState.recordOpen, ha, Bool.or_eq_true]
    exact .inr rfl
  exact hr ▸ (h.withdraw r).between (withdraw_armed ..)

theorem continueBody (h : s.txe.Lawful) (m : Mgmt) : (continueBody m s).1.txe.Lawful := by
  unfold Machine.continueBody
  split
  · exact h
  next k ha =>
    split_ifs
    · exact h
    · exact h
    · exact (h.withdrawHalted ha .replaced).enterSwitching _

theorem retreatBody (h : s.txe.Lawful) (m : Mgmt) : (retreatBody m s).1.txe.Lawful := by
  unfold Machine.retreatBody
  split
  · exact h
  next k ha =>
    split
    · exact h
    · split
      · exact h
      · split
        · exact h
        · have hb := h.withdrawHalted ha .replaced
          exact Txe.Between.launch (s := closeRecord .abandoned s.txe.now (Machine.withdraw .replaced s))
            (hb.close (by decide) _) ..

theorem moveBody (h : s.txe.Lawful) (m : Mgmt) : (moveBody m s).1.txe.Lawful := by
  unfold Machine.moveBody
  split
  · exact h.keepsTxe (moveRequest_txe ..)
  · exact h

theorem trimClearBody (h : s.txe.Lawful) (m : Mgmt) : (trimClearBody m s).1.txe.Lawful := ite h h

theorem scheduleHoldBody (h : s.txe.Lawful) (m : Mgmt) : (scheduleHoldBody m s).1.txe.Lawful := by
  unfold Machine.scheduleHoldBody
  split
  · exact h.holdOn
  · exact h.holdOff _

end Txe.Lawful

/-! ### Loading leaves TXE alone -/

section
variable (s : State)

@[simp] theorem onSlot_txe (x : Target) (f : Pst → Slot → Pst) : (onSlot x f s).txe = s.txe := by
  unfold onSlot
  split <;> rfl

@[simp] theorem claimBody_txe (m : Mgmt) : (claimBody m s).1.txe = s.txe := by
  unfold claimBody
  split
  · rfl
  · simp only [takeClaim, claimRegion, State.setClaim_txe]
    split <;> rfl

theorem writeSegment_txe {s t : State} {x : Target} {a : Nat} {ws : List Word} (h : writeSegment x a ws s = .ok t) :
    t.txe = s.txe := by
  unfold writeSegment at h
  split at h
  · split at h <;> cases h
    rfl
  · cases h
    rfl

theorem appendWords_txe (x : Target) (n : Nat) (ws : List Word) (r : LoadRun) :
    (appendWords x n ws r).state.txe = r.state.txe := by
  induction ws generalizing r with
  | nil => rfl
  | cons w ws ih =>
    unfold appendWords
    split
    · split
      next hw => exact (ih _).trans (writeSegment_txe hw)
      next => rfl
    · exact ih _

@[simp] theorem loadBody_txe (m : Mgmt) : (loadBody m s).1.txe = s.txe := by
  unfold loadBody
  split
  · rfl
  · split
    · rfl
    · exact appendWords_txe ..

theorem flush_ok_txe {x : Target} {c d : Claim} {t : State} {b : Bool} (h : flush x c s = .ok (t, d, b)) :
    t.txe = s.txe := by
  unfold flush at h
  split at h
  · cases h
    rfl
  · split at h
    next hw =>
      cases h
      exact (writeSegment_txe hw :)
    next => cases h

theorem flush_error_txe {x : Target} {c : Claim} {r : State × Answer} (h : flush x c s = .error r) : r.1.txe = s.txe := by
  unfold flush at h
  split at h
  · cases h
  · split at h <;> cases h
    rfl

@[simp] theorem takeCommit_txe (x : Target) (c : Claim) (r : Option Nat) : (takeCommit x c r s).1.txe = s.txe := by
  unfold takeCommit
  split
  next h => exact flush_error_txe s h
  next h => exact (flush_ok_txe s h :)

@[simp] theorem takeFinish_txe (x : Target) (c : Claim) (w : Word) : (takeFinish x c w s).1.txe = s.txe := by
  unfold takeFinish
  split
  next h => exact flush_error_txe s h
  next h => exact (onSlot_txe ..).trans (flush_ok_txe s h)

@[simp] theorem commitBody_txe (m : Mgmt) : (commitBody m s).1.txe = s.txe := by
  unfold commitBody
  split
  · rfl
  · split
    · rfl
    · exact takeCommit_txe ..

@[simp] theorem finishBody_txe (m : Mgmt) : (finishBody m s).1.txe = s.txe := by
  unfold finishBody
  split
  · rfl
  · split
    · rfl
    · exact takeFinish_txe ..

@[simp] theorem abandon_txe (x : Target) : (abandon x s).txe = s.txe := onSlot_txe ..

@[simp] theorem unclaimBody_txe (m : Mgmt) : (unclaimBody m s).1.txe = s.txe := by
  unfold unclaimBody
  split
  · rfl
  · exact abandon_txe ..

@[simp] theorem lapse_txe (x : Target) : (lapse x s).txe = s.txe := by
  unfold lapse
  split
  · rfl
  · split
    · rfl
    · exact abandon_txe ..

@[simp] theorem makeLive_txe (x : Target) (v : Word) : (makeLive x v s).txe = s.txe := by
  unfold makeLive
  split
  · exact onSlot_txe ..
  · simp only [State.setLdu_txe]
    split
    · exact replaceContactors_txe ..
    · exact replaceSchedule_txe ..

@[simp] theorem completeCheck_txe (x : Target) : (completeCheck x s).txe = s.txe := by
  unfold completeCheck
  split
  · rfl
  · split
    · rfl
    · simp only [actOnCheck, State.raise_txe, apply_ite State.txe, State.setClaim_txe, makeLive_txe, onSlot_txe, ite_self]

end

/-! ### Every command and the idle step -/

theorem idle_lawful {s : State} (h : s.txe.Lawful) : (idle s).txe.Lawful := by
  unfold idle
  split
  · split
    · exact h
    · refine .ite ?_ h
      unfold tick
      dsimp only
      split
      · exact h.tick
      · exact h
  · exact h

/-- A command of CMU keeps the laws when its block does (R166). -/
theorem serve_lawful {s : State} (h : s.txe.Lawful) {c : Cmd} {body : Mgmt → State → State × Answer}
    (hb : ∀ m, (body m s).1.txe.Lawful) : (whileRunning (serve c body) s).txe.Lawful := by
  refine .ite ?_ h
  unfold serve
  split
  · exact h
  next m _ _ =>
    refine .ite ?_ h
    unfold runCommand
    split
    · exact h
    · exact hb m

theorem serveUnknown_lawful {s : State} (h : s.txe.Lawful) : (serveUnknown s).txe.Lawful := by
  unfold serveUnknown
  split
  · exact h
  · exact .ite h h

/-- Every command keeps the laws of the Transition Engine. -/
theorem exec_lawful (i : Instr) {s : State} (h : s.txe.Lawful) : ∃ t, exec i s = .next t ∧ t.txe.Lawful := by
  have running : ∀ {f : State → State}, (f s).txe.Lawful → (whileRunning f s).txe.Lawful := fun hf => .ite hf h
  have counting : ∀ {f : State → State}, (f s).txe.Lawful → (whileCounting f s).txe.Lawful := fun hf => .ite hf h
  have served : ∀ {c : Cmd} {body : Mgmt → State → State × Answer}, (∀ m, (body m s).1.txe.Lawful) →
      (whileRunning (serve c body) s).txe.Lawful := serve_lawful h
  have kept : ∀ {t : State}, t.txe = s.txe → t.txe.Lawful := h.keepsTxe
  cases i with
  | powerOnReset a => exact ⟨_, rfl, .reset⟩
  | resetAsserted => exact ⟨_, rfl, .reset⟩
  | refclkStopped => exact ⟨_, rfl, h⟩
  | refclkReturned => exact ⟨_, rfl, h⟩
  | sampleFrame rx => exact ⟨_, rfl, running (h.receiveSample rx)⟩
  | missedFrame => exact ⟨_, rfl, counting h.missFrame⟩
  | localPaceFrame => exact ⟨_, rfl, counting h.localFrame⟩
  | lossTimerExpiry => exact ⟨_, rfl, counting h.lossExpiry⟩
  | mgmtFrame rx => exact ⟨_, rfl, running (h.receiveMgmt rx)⟩
  | timeFrame rx => exact ⟨_, rfl, running (h.receiveTime rx)⟩
  | releaseFrame rx => exact ⟨_, rfl, running (h.receiveRelease rx)⟩
  | emptyFrame rx => exact ⟨_, rfl, running (h.receiveEmpty rx)⟩
  | status => exact ⟨_, rfl, served fun _ => h⟩
  | switch => exact ⟨_, rfl, served h.switchBody⟩
  | withdraw => exact ⟨_, rfl, served h.withdrawBody⟩
  | go => exact ⟨_, rfl, served h.goBody⟩
  | continueTx => exact ⟨_, rfl, served h.continueBody⟩
  | retreat => exact ⟨_, rfl, served h.retreatBody⟩
  | mute => exact ⟨_, rfl, served fun _ => (h.withdraw .mute).muteArray (withdraw_armed ..) _⟩
  | move => exact ⟨_, rfl, served h.moveBody⟩
  | ackFault => exact ⟨_, rfl, served fun _ => h⟩
  | trimClear => exact ⟨_, rfl, served h.trimClearBody⟩
  | scheduleHold => exact ⟨_, rfl, served h.scheduleHoldBody⟩
  | claim => exact ⟨_, rfl, served fun m => kept (claimBody_txe s m)⟩
  | load => exact ⟨_, rfl, served fun m => kept (loadBody_txe s m)⟩
  | commit => exact ⟨_, rfl, served fun m => kept (commitBody_txe s m)⟩
  | finish => exact ⟨_, rfl, served fun m => kept (finishBody_txe s m)⟩
  | unclaim => exact ⟨_, rfl, served fun m => kept (unclaimBody_txe s m)⟩
  | read => exact ⟨_, rfl, served fun _ => h⟩
  | reporting => exact ⟨_, rfl, served fun _ => h⟩
  | clearOverflow => exact ⟨_, rfl, served fun _ => h⟩
  | restart => exact ⟨_, rfl, served fun _ => h.restart⟩
  | interlockOpening => exact ⟨_, rfl, h.ilkLineOpen⟩
  | interlockLineClosed => exact ⟨_, rfl, h⟩
  | interlockQualified => exact ⟨_, rfl, counting h.ilkQualified⟩
  | rdyLineChange t b => exact ⟨_, rfl, h⟩
  | cabinetDebounceExpiry t => exact ⟨_, rfl, counting (h.rdyDebounced t)⟩
  | auxInputChange c a b => exact ⟨_, rfl, h⟩
  | auxDebounceExpiry c a => exact ⟨_, rfl, counting (h.auxDebounced c a)⟩
  | travelLimitExpiry c => exact ⟨_, rfl, counting (h.travelExpired c)⟩
  | settleTimerExpiry => exact ⟨_, rfl, counting h.settleExpired⟩
  | gateTimerExpiry => exact ⟨_, rfl, counting h.gateExpired⟩
  | checkCompletion x => exact ⟨_, rfl, running (kept (completeCheck_txe s x))⟩
  | claimLapse x => exact ⟨_, rfl, counting (kept (lapse_txe s x))⟩
  | monitorRecord rx => exact ⟨_, rfl, running (h.takeRecord rx)⟩
  | absenceTimerExpiry => exact ⟨_, rfl, counting h.absenceExpiry⟩
  | holdOffExpiry => exact ⟨_, rfl, counting h⟩
  | staleTimerExpiry => exact ⟨_, rfl, counting h.staleExpiry⟩
  | unknownCommand => exact ⟨_, rfl, running (serveUnknown_lawful h)⟩

/-- Settles O59: nothing is armed in a phase, so every phase can follow another (`Txe.Between`); a start opens its record, a
completion, a mute and an abandonment close it, and a halt counts in it. -/
theorem stepsKeepTheEngineLaw : Obligations.StepsKeepTheEngineLaw := by
  intro s t hstep hlaw
  have h := (engineLaw_iff s).1 hlaw
  refine (engineLaw_iff t).2 ?_
  unfold step at hstep
  split at hstep
  next =>
    cases hstep
    exact idle_lawful h
  next c rest _ =>
    obtain ⟨u, hu, hkept⟩ := exec_lawful c (s := s.setPending rest) h
    rw [hu] at hstep
    cases hstep
    exact hkept

end Sys2Proof.Machine
end

section
/-! SUPPORT. The range tests of every command's parameter words. -/
namespace Sys2Proof.Machine

/-! ## Parameter words (R166) -/

/-- The range tests of a command are these rows: the offset of a word, and the values admitted there. -/
abbrev RangesAre (c : Cmd) (m : Mgmt) (ws : List (Nat × Prop)) : Prop :=
  List.Forall₂ (fun r w => r.1 = w.1 ∧ (r.2 = true ↔ w.2)) (c.ranges m) ws

theorem forall₂_ranges_all {rs : List (Nat × Bool)} {ws : List (Nat × Prop)}
    (h : List.Forall₂ (fun r w => r.1 = w.1 ∧ (r.2 = true ↔ w.2)) rs ws) : (∀ r ∈ rs, r.2 = true) ↔ ∀ w ∈ ws, w.2 := by
  induction h with
  | nil => simp
  | cons hrow _ ih => rw [List.forall_mem_cons, List.forall_mem_cons, hrow.2, ih]

/-- With an admitted count a frame passes exactly when every row admits its word and it is not a broadcast turned away. -/
theorem examines_of_ranges {c : Cmd} {m : Mgmt} {ws : List (Nat × Prop)} (hcount : c.admitsCount m.params.length = true)
    (h : RangesAre c m ws) :
    RangesAre c m ws ∧ (precheck c m = none ↔ (m.dest ≠ 0 ∨ c.broadcast = true) ∧ ∀ w ∈ ws, w.2) := by
  rw [precheck_eq_none hcount, forall₂_ranges_all h]
  exact ⟨h, Iff.rfl⟩

section
variable (m : Mgmt)

theorem switch_ranges : RangesAre .switch m
    [(0, field (m.param 0) 4 2 ≤ 2), (1, (m.param 0).getLsbD 8 = true → 10 ≤ m.num 1 ∧ m.num 1 ≤ 10000),
     (4, (m.param 0).getLsbD 10 = true → m.num 4 ≤ 4095), (5, (m.param 0).getLsbD 11 = true → m.num 5 ≤ 4095)] := by
  simp [RangesAre, Cmd.ranges, imp_iff_not_or]

theorem mute_ranges : RangesAre .mute m [(0, m.num 0 ≤ 4095 ∨ m.num 0 = 65535)] := by simp [RangesAre, Cmd.ranges]

theorem move_ranges : RangesAre .move m [(0, field (m.param 0) 0 8 ≤ 23 ∧ field (m.param 0) 8 8 ≤ 1)] := by
  simp [RangesAre, Cmd.ranges]

theorem scheduleHold_ranges : RangesAre .scheduleHold m
    [(0, ¬ ((m.param 0).getLsbD 0 = true ∧ (m.param 0).getLsbD 1 = true))] := by
  simp [RangesAre, Cmd.ranges, imp_iff_not_or]

/-- The base of a slot is examined, that of the two tables is not (log 17). -/
theorem claim_ranges : RangesAre .claim m
    [(0, m.num 0 ≤ 17), (1, m.num 0 ≤ 15 → m.num 1 ≤ 2047), (2, 1 ≤ m.num 2 ∧ m.num 2 ≤ 2048), (3, m.num 3 ≤ 64)] := by
  have hbase : 16 ≤ m.num 0 ∨ m.num 1 ≤ 2047 ↔ (m.num 0 ≤ 15 → m.num 1 ≤ 2047) := by omega
  simp [RangesAre, Cmd.ranges, hbase]

theorem commit_ranges : RangesAre .commit m [(0, m.num 0 ≤ 17), (1, m.num 1 ≤ 2047 ∨ m.num 1 = 65535)] := by
  simp [RangesAre, Cmd.ranges]

theorem read_ranges : RangesAre .read m
    [(0, m.num 0 ≤ 19), (1, m.num 1 ≤ 2047), (2, 1 ≤ m.num 2 ∧ m.num 2 ≤ 48)] := by simp [RangesAre, Cmd.ranges]

end

/-- Settles O20: each command's rows, and what passing them means (`examines_of_ranges`). -/
theorem commandsAdmitTheirRanges : Obligations.CommandsAdmitTheirRanges := by
  intro m examines
  have count : ∀ {c : Cmd} {n : Nat}, m.params.length = n → c.admitsCount n = true →
      c.admitsCount m.params.length = true := fun h hn => h ▸ hn
  refine ⟨fun h => examines_of_ranges (count h rfl) (switch_ranges m), fun h => ⟨?_, ?_, ?_, ?_, ?_, ?_⟩,
    fun h => examines_of_ranges (count h rfl) (claim_ranges m), fun h => ?_, fun h => ⟨?_, ?_⟩, fun h => ⟨?_, ?_⟩,
    fun h c hc => ?_, fun k => ⟨rfl, rfl⟩, fun h => ?_⟩
  · exact examines_of_ranges (count h rfl) (mute_ranges m)
  · exact examines_of_ranges (count h rfl) (move_ranges m)
  · exact examines_of_ranges (count h rfl) (by simp [RangesAre, Cmd.ranges])
  · exact examines_of_ranges (count h rfl) (by simp [RangesAre, Cmd.ranges])
  · exact examines_of_ranges (count h rfl) (scheduleHold_ranges m)
  · exact examines_of_ranges (count h rfl) (by simp [RangesAre, Cmd.ranges])
  · exact examines_of_ranges (by simpa [Cmd.admitsCount] using h) (by simp [RangesAre, Cmd.ranges])
  · exact examines_of_ranges (count h rfl) (commit_ranges m)
  · exact examines_of_ranges (count h rfl) (by simp [RangesAre, Cmd.ranges])
  · exact examines_of_ranges (count h rfl) .nil
  · exact examines_of_ranges (count h rfl) (read_ranges m)
  · simp only [List.mem_cons, List.not_mem_nil, or_false] at hc
    rcases hc with rfl | rfl | rfl | rfl | rfl | rfl | rfl <;> exact examines_of_ranges (count h rfl) .nil
  · exact Nat.mod_eq_of_lt (by omega)

end Sys2Proof.Machine
end

section
/-! SUPPORT. Requests of SCU and MON by the first condition that fails, and what becomes of a taken occurrence. -/
namespace Sys2Proof.Machine

/-! ## Blend (R60 check 4) -/

theorem blendBarred_iff (s : State) (k : Slot) : blendBarred s k = true
    ↔ recBlend (s.recordOf k) = false ∨ ∃ q, s.txe.array = .active q ∧ recBlend (s.recordOf q) = false := by
  cases ha : s.txe.array <;> simp [blendBarred, ha, ArrayState.activeSlot]

/-! ## Requests (R62) -/

section
variable {s : State} {p target : Slot} {mode : ReqMode} {frame : Option FrameNum} {cause : Cause}

/-- BLEND is barred for a request of the Schedule Unit in ACTIVE(p) (R62 by check 4 of R60). -/
abbrev RequestBarred (s : State) (p target : Slot) (mode : ReqMode) (cause : Cause) : Prop :=
  cause = .schedule ∧ mode = .blend ∧ (recBlend (s.recordOf target) = false ∨ recBlend (s.recordOf p) = false)

theorem request_outside (h : s.txe.array.activeSlot = none) :
    request target mode frame cause s = (s, .state s.txe.array.inFlight) := by
  unfold request
  split
  next p ha => rw [ha] at h; cases h
  all_goals next ha => rw [ha]

theorem request_refused (ha : s.txe.array = .active p) {r : ReqAnswer}
    (h : requestRefusal s p target mode (cause == .schedule) = some r) : request target mode frame cause s = (s, r) := by
  simp [request, ha, h]

theorem request_unresolved (ha : s.txe.array = .active p)
    (h : requestRefusal s p target mode (cause == .schedule) = none) {x : OutcomeCode}
    (hf : resolveFrame s.txe.frame frame = .error x) :
    request target mode frame cause s = (s, if x = .far then .far else .late) := by
  simp [request, ha, h, hf]

theorem request_resolved (ha : s.txe.array = .active p) (h : requestRefusal s p target mode (cause == .schedule) = none)
    {f : FrameNum} (hf : resolveFrame s.txe.frame frame = .ok f) : request target mode frame cause s
      = (s.setArmed (some { target := target, mode := mode, frame := f, joint := none, down := none, up := none,
                            cause := cause }), .armed f) := by
  simp [request, ha, h, hf]

/-- The conditions of R62 in their order, in ACTIVE(p). -/
theorem requestRefusal_eq (ha : s.txe.array = .active p) : requestRefusal s p target mode (cause == .schedule)
    = if s.txe.armed ≠ none then some .armedStands
      else if s.dsy.ilkClosed = false then some .interlock
      else if s.pst.isValid target = false then some .notValid
      else if target = p then some .alreadyActive
      else if RequestBarred s p target mode cause then some .notPermitted
      else none := by
  have hbarred : blendBarred s target = true
      ↔ recBlend (s.recordOf target) = false ∨ recBlend (s.recordOf p) = false := by
    rw [blendBarred_iff]
    simp [ha]
  simp only [requestRefusal, hbarred, Option.isSome_iff_ne_none, beq_iff_eq]

end

/-! ## What becomes of an occurrence (R129 to R133) -/

section
variable {o d : Occurrence} {s : State}

theorem takeOccurrence_held (h : s.scu.hold = true) : takeOccurrence o s = holdDue o s := if_pos h

theorem takeOccurrence_requests {e : SchedEntry} {u : State} {a : ReqAnswer} (h : s.scu.hold = false)
    (he : s.scu.table[o.entry] = some e)
    (hr : request e.target e.mode (s.rif.frame.map (· + 64)) .schedule s = (u, a)) : takeOccurrence o s = settleDue o a u := by
  simp only [takeOccurrence, h, Bool.false_eq_true, if_false, actOn, he, leadFrame, hr]

theorem defer_replaces (h : s.scu.deferred = some d) (hd : d ≠ o) : defer o s
    = (raiseDue d .missed .replaced none s).setScu
        { (raiseDue d .missed .replaced none s).scu with deferred := some o } := by
  simp [defer, h, hd]

theorem defer_alone (h : s.scu.deferred = none ∨ s.scu.deferred = some o) :
    defer o s = s.setScu { s.scu with deferred := some o } := by
  rcases h with h | h <;> simp [defer, h]

/-- An occurrence deferred for a reason of R129. -/
theorem settleDue_defers {a : ReqAnswer} {reason : DueReason}
    (h : a = .armedStands ∧ reason = .armed ∨ a = .state true ∧ reason = .inFlight) :
    settleDue o a s = raiseDue o .deferred reason none (defer o s) := by
  rcases h with ⟨rfl, rfl⟩ | ⟨rfl, rfl⟩ <;> rfl

end

/-- Settles O16: the conditions of R62 one by one (`requestRefusal_eq`), then what SCU does with each answer. -/
theorem scheduleRequestsAreAnsweredInOrder : Obligations.ScheduleRequestsAreAnsweredInOrder := by
  refine ⟨fun target mode frame cause s _ => ⟨request_outside, fun p ha => ?requests⟩, fun o s hhold => ?held,
    fun o s u e a hhold he hr => ?taken, fun o outcome reason s => ⟨rfl, fun _ => rfl⟩, rfl, rfl, fun u o => ⟨rfl,
      fun h => (Scu.fire_deferred u o).trans (if_pos h), fun h => (Scu.fire_deferred u o).trans (if_neg h), Scu.fire_table u o⟩⟩
  case requests =>
    have hrefusal := requestRefusal_eq (target := target) (mode := mode) (cause := cause) ha
    refine ⟨fun h1 => ?_, fun h1 h2 => ?_, fun h1 h2 => ⟨fun h3 => ?_, fun h3 => ⟨fun h4 => ?_, fun h4 => ?other⟩⟩⟩
    case other =>
      intro barred
      refine ⟨fun h5 => request_refused ha ?_, fun h5 c hc => ?_⟩
      · rw [hrefusal]
        simp [h1, h2, h3, h4, show RequestBarred s p target mode cause from h5]
      · have hnone : requestRefusal s p target mode (cause == .schedule) = none := by
          rw [hrefusal]
          simp [h1, h2, h3, h4, show ¬ RequestBarred s p target mode cause from h5]
        refine ⟨fun a hf hlate => ?_, fun a hf hfar hnear => ?_, fun a hf => ?_⟩
        · exact request_unresolved (x := .late) ha hnone (by rw [hc, hf, resolveFrame_late hlate])
        · exact request_unresolved (x := .far) ha hnone (by rw [hc, hf, resolveFrame_far hfar hnear])
        · refine request_resolved ha hnone ?_
          rcases hf with ⟨rfl, hlow, hhigh⟩ | ⟨rfl, rfl⟩
          · rw [hc, resolveFrame_ok hlow hhigh]
          · rw [hc, resolveFrame_next]
    all_goals
      refine request_refused ha ?_
      rw [hrefusal]
      simp_all
  case held =>
    refine ⟨fun h => ?_, fun d h => ?_⟩ <;> rw [takeOccurrence_held hhold] <;> simp only [holdDue, h]
  case taken =>
    have ht := takeOccurrence_requests hhold he hr
    refine ⟨?_, ?_, ?_, ?_, ?_, ?_, ?_, ?_, fun reason hreason => ⟨fun d hd hne => ?replaces, fun hd => ?alone⟩, ht⟩
    case replaces => rw [ht, settleDue_defers hreason, defer_replaces hd hne]
    case alone => rw [ht, settleDue_defers hreason, defer_alone hd]
    · rintro f rfl; exact ht
    all_goals rintro rfl; exact ht

end Sys2Proof.Machine
end

section
/-! SUPPORT. SWITCH, WITHDRAW and GO: their frames, their answers and the frame events of GO taken. -/
namespace Sys2Proof.Machine

/-! ## SWITCH (R59, R60) -/

section
variable {m : Mgmt} {s : State}

theorem exec_switch (h : Serves .switch m s) : exec .switch s = .next (finishCommand m (switchBody m s)) :=
  congrArg Host.Outcome.next (serve_served h switchBody)

/-- Checks 1 to 4 of R60 in their order. -/
theorem switchRefusal_eq (p : SwitchParams) (s : State) : switchRefusal p s
    = if s.pst.isValid p.target = false then some .notValid
      else if s.dsy.ilkClosed = false then some .interlock
      else if s.txe.array.inFlight = true then some .busy
      else if p.mode = .blend ∧ (recBlend (s.recordOf p.target) = false
        ∨ ∃ q, s.txe.array = .active q ∧ recBlend (s.recordOf q) = false) then some .notPermitted
      else none := by
  simp only [switchRefusal, blendBarred_iff]

theorem switchBody_refused {x : OutcomeCode} (h : switchRefusal (switchParams m) s = some x) :
    switchBody m s = (s, answer x []) := by
  simp only [switchBody, h]

theorem switchBody_unresolved {x : OutcomeCode} (h : switchRefusal (switchParams m) s = none)
    (hf : resolveFrame s.txe.frame (switchParams m).frame = .error x) : switchBody m s = (s, answer x []) := by
  simp only [switchBody, h, hf]

theorem switchBody_resolved {f : FrameNum} (h : switchRefusal (switchParams m) s = none)
    (hf : resolveFrame s.txe.frame (switchParams m).frame = .ok f) : switchBody m s
      = if s.txe.array = .active (switchParams m).target ∧ s.txe.armed = none then (s, answer .done [1])
        else (arm (armedOf (switchParams m) f) s, answer .armed (word (switchParams m).target.val :: twoWords f)) := by
  simp only [switchBody, h, hf]

/-- What the older request leaves in the Report Queue (R61). -/
theorem withdrawnNotice_some {a : Armed} (n : Nat) (h : s.txe.armed = some a) : withdrawnNotice n s
    = [.notice .armedWithdrawn s.stamp (subjectOf a.target.val) none ([word n] ++ twoWords a.frame ++ [word a.cause.code])] := by
  rw [withdrawnNotice, h]
  rfl

end

theorem field_lt (w : Word) (lo len : Nat) : field w lo len < 2 ^ len := Nat.mod_lt _ (Nat.two_pow_pos len)

theorem presentIf_true {α : Type} {b : Bool} (h : b = true) (x : α) : presentIf b x = some x := if_pos h

theorem presentIf_false {α : Type} {b : Bool} (h : b = false) (x : α) : presentIf b x = none :=
  if_neg (by rw [h]; exact Bool.noConfusion)

/-- Settles O23: `switchRefusal_eq` and `resolveFrame` give the checks, `arm_eq` the request armed. -/
theorem switchIsExaminedAndArmed : Obligations.SwitchIsExaminedAndArmed := by
  refine ⟨fun m s hs => ?checks, fun m => ?fields⟩
  case checks =>
    have hexec := exec_switch hs
    have hrefusal := switchRefusal_eq (switchParams m) s
    have refused : ∀ {x : OutcomeCode}, switchRefusal (switchParams m) s = some x →
        exec .switch s = .next (answered m x [] s) := fun h => by rw [hexec, switchBody_refused h]; rfl
    intro p
    refine ⟨fun h1 => refused ?_, fun h1 => ⟨fun h2 => refused ?_, fun h2 => ⟨fun h3 => refused ?_, fun h3 => ?other⟩⟩⟩
    case other =>
      intro barred
      refine ⟨fun h4 => refused ?_, fun h4 => ?_⟩
      · rw [hrefusal, if_neg (by rw [h1]; decide), if_neg (by rw [h2]; decide), if_neg (by rw [h3]; decide), if_pos h4]
      · have hnone : switchRefusal (switchParams m) s = none := by
          rw [hrefusal, if_neg (by rw [h1]; decide), if_neg (by rw [h2]; decide), if_neg (by rw [h3]; decide), if_neg h4]
        have unresolved : ∀ {x : OutcomeCode}, resolveFrame s.txe.frame p.frame = .error x →
            exec .switch s = .next (answered m x [] s) := fun h => by rw [hexec, switchBody_unresolved hnone h]; rfl
        refine ⟨fun hc => unresolved (by rw [hc, resolveFrame_none]), fun c hc => ⟨fun a hf hlate => ?_,
          fun a hf hfar hnear => ?_, fun f hf => ?_⟩⟩
        · exact unresolved (by rw [hc, hf, resolveFrame_late hlate])
        · exact unresolved (by rw [hc, hf, resolveFrame_far hfar hnear])
        · have hok : resolveFrame s.txe.frame p.frame = .ok f := by
            rcases hf with ⟨hp, hlow, hhigh⟩ | ⟨hp, rfl⟩
            · rw [hc, hp, resolveFrame_ok hlow hhigh]
            · rw [hc, hp, resolveFrame_next]
          have hbody := switchBody_resolved hnone hok
          refine ⟨fun ha hn => ?_, fun hn => ⟨arm (armedOf p f) s, ?_, ?_⟩⟩
          · rw [hexec, hbody, if_pos ⟨ha, hn⟩]; rfl
          · rw [hexec, hbody, if_neg hn]; rfl
          · rw [arm_eq]
            refine ⟨rfl, rfl, fun r hr => ?_, ArrayState.unmuted_other, fun hn => ?_, fun o ho => ?_⟩
            · exact (congrArg ArrayState.unmuted hr).trans (ArrayState.unmuted_muted r)
            · rw [withdrawnNotice_none hn]; rfl
            · rw [withdrawnNotice_some 1 ho]; rfl
    · rw [hrefusal, if_pos h1]
    · rw [hrefusal, if_neg (by rw [h1]; decide), if_pos h2]
    · rw [hrefusal, if_neg (by rw [h1]; decide), if_neg (by rw [h2]; decide), if_pos h3]
  case fields =>
    refine ⟨Nat.mod_eq_of_lt (field_lt _ 0 4), fun h => ?_, fun h => ?_, fun h => ?_, rfl, presentIf_false (x := _),
      fun h => ⟨_, presentIf_true h _, joinWords_toNat ..⟩, presentIf_false (x := _), presentIf_true (x := _),
      presentIf_false (x := _), presentIf_true (x := _)⟩
    all_goals exact congrArg reqMode h

/-! ## Commands without ranges (R166, R167) -/

/-- A command that may be broadcast and examines no word passes with its count. -/
theorem precheck_of_count {c : Cmd} {m : Mgmt} (hb : c.broadcast = true) (hr : c.ranges m = []) :
    precheck c m = none ↔ c.admitsCount m.params.length = true := by
  simp [precheck, hb, hr]

/-! ## WITHDRAW (R63) and the in-use set (R79) -/

theorem exec_withdraw {m : Mgmt} {s : State} (h : Serves .withdraw m s) :
    exec .withdraw s = .next (finishCommand m (withdrawBody m s)) :=
  congrArg Host.Outcome.next (serve_served h withdrawBody)

theorem withdrawBody_none {s : State} (h : s.txe.armed = none) (m : Mgmt) :
    withdrawBody m s = (s, answer .wrongState []) := by
  simp only [withdrawBody, h]

theorem withdrawBody_some {s : State} {a : Armed} (h : s.txe.armed = some a) (m : Mgmt) :
    withdrawBody m s = (s.setArmed none, answer .done (word a.target.val :: twoWords a.frame)) := by
  simp only [withdrawBody, h]

theorem ArrayState.mayBeArmed_of_inFlight {a : ArrayState} (h : a.inFlight = true) : a.mayBeArmed = false := by
  cases a <;> first | rfl | cases h

/-- The slots the array state holds (R79). -/
theorem ArrayState.mem_slots (a : ArrayState) (k : Slot) : k ∈ a.slots ↔ a = .active k
    ∨ (∃ c, a.context = some c ∧ (c.target = k ∨ c.source = some k))
    ∨ (∃ h, a = .halted h ∧ (h.target = k ∨ h.source = some k)) ∨ a = .muted (some k) := by
  cases a <;> simp [ArrayState.slots, ArrayState.context, eq_comm (a := k)]

/-- Settles O24: the Armed Request removed and named, and the in-use set written out. -/
theorem withdrawRemovesTheArmedRequest : Obligations.WithdrawRemovesTheArmedRequest := by
  refine ⟨fun m s hs => ?_, fun x k => ?_, fun x k => ?_, ArrayState.mem_slots, fun m => ?_⟩
  · have refused : s.txe.armed = none → exec .withdraw s = .next (answered m .wrongState [] s) := fun h => by
      rw [exec_withdraw hs, withdrawBody_none h]; rfl
    refine ⟨refused, fun a ha => ?_, fun hlaw hflight => refused ?_⟩
    · rw [exec_withdraw hs, withdrawBody_some ha]; rfl
    · exact ((engineLaw_iff s).1 hlaw).unarmed (ArrayState.mayBeArmed_of_inFlight hflight)
  · simp [inUse_iff]
  · exact inUse_iff x k
  · rw [precheck_of_count rfl rfl]
    simp [Cmd.admitsCount]

/-! ## GO (R77) -/

theorem exec_go {m : Mgmt} {s : State} (h : Serves .go m s) : exec .go s = .next (finishCommand m (goBody m s)) :=
  congrArg Host.Outcome.next (serve_served h goBody)

section
variable {m : Mgmt} {s : State} {c : TxContext}

theorem goBody_unresolved {n : Nat} {x : OutcomeCode} (ha : s.txe.array = .readyUp c (.awaiting n))
    (hf : resolveFrame s.txe.frame (goFrame m) = .error x) : goBody m s = (s, answer x []) := by
  simp only [goBody, ha, hf]

theorem goBody_resolved {n : Nat} {f : FrameNum} (ha : s.txe.array = .readyUp c (.awaiting n))
    (hf : resolveFrame s.txe.frame (goFrame m) = .ok f) :
    goBody m s = (s.setArray (.readyUp c (.taken f)), answer .done (twoWords f)) := by
  simp only [goBody, ha, hf]

end

/-- Of two different frames, a is ahead of n when the difference is below 2^31. -/
theorem isAhead_iff {a n : FrameNum} (h : n ≠ a) : isAhead a n = true ↔ (a - n).toNat < 2 ^ 31 := by
  have hpos : 1 ≤ (a - n).toNat := by bv_omega
  unfold isAhead aheadBy
  rw [decide_eq_true hpos, Bool.true_and, decide_eq_true_iff]

/-- A frame event in GO taken, with nothing armed, is examined as for an Armed Request (R77). -/
theorem frameEvent_go {s : State} {c : TxContext} {f : FrameNum} (harmed : s.txe.armed = none)
    (ha : s.txe.array = .readyUp c (.taken f)) (n : FrameNum) (b : Bool) :
    frameEvent n b s = examineGo c f n b (s.setTxe { s.txe with frame := some n }) := by
  simp only [frameEvent, State.setTxe_txe, harmed, ha]

/-- Settles O25: GO answered by the array state, and the GO frame reached, ahead, passed or renumbered. -/
theorem goTakesItsActivationFrame : Obligations.GoTakesItsActivationFrame := by
  refine ⟨fun m s hs => ?answers, fun m => ?_, fun m => ⟨?_, fun f hf => ?_⟩, fun c f n b s harmed ha => ?events⟩
  case answers =>
    have hexec := exec_go hs
    intro late
    refine ⟨fun c n ha => ?_, fun c n ha => ?_, fun c f e h p r ha => ?_⟩
    · have unresolved : ∀ {x : OutcomeCode}, resolveFrame s.txe.frame (goFrame m) = .error x →
          exec .go s = .next (answered m x [] s) := fun h => by rw [hexec, goBody_unresolved ha h]; rfl
      refine ⟨fun hc => unresolved (by rw [hc, resolveFrame_none]), fun now hc => ⟨fun a hf hlate => ?_,
        fun a hf hfar hnear => ?_, fun f hf => ?_⟩⟩
      · exact unresolved (by rw [hc, hf, resolveFrame_late hlate])
      · exact unresolved (by rw [hc, hf, resolveFrame_far hfar hnear])
      · have hok : resolveFrame s.txe.frame (goFrame m) = .ok f := by
          rcases hf with ⟨hp, hlow, hhigh⟩ | ⟨hp, rfl⟩
          · rw [hc, hp, resolveFrame_ok hlow hhigh]
          · rw [hc, hp, resolveFrame_next]
        rw [hexec, goBody_resolved ha hok]
        rfl
    · have hbody : goBody m s = (s, answer .notReady []) := by rcases ha with ha | ha | ha <;> simp only [goBody, ha]
      rw [hexec, hbody]
      rfl
    · have hbody : goBody m s = (s, answer .wrongState []) := by
        rcases ha with ha | ha | ha | ha | ha | ha | ha <;> simp only [goBody, ha]
      rw [hexec, hbody]
      rfl
  case events =>
    intro u
    rw [frameEvent_go harmed ha]
    refine ⟨fun hb hn => if_pos ⟨hb, hn⟩, fun hb hn hahead => ?_, fun hpassed g hg => ?_⟩
    · exact (if_neg fun h => hn h.2).trans (if_pos ⟨hb, (isAhead_iff hn).2 hahead⟩)
    · have hnot : ¬ (b = false ∧ n = f) ∧ ¬ (b = false ∧ isAhead f n = true) := by
        rcases hpassed with rfl | ⟨hn, hbehind⟩
        · simp
        · exact ⟨fun h => hn h.2, fun h => absurd ((isAhead_iff hn).1 h.2) (Nat.not_lt.2 hbehind)⟩
      refine ((if_neg hnot.1).trans (if_neg hnot.2)).trans ?_
      rw [hg]
      rfl
  case _ =>
    rw [precheck_of_count rfl rfl]
    simp [Cmd.admitsCount]
  case _ => simp [goFrame, presentIf]
  case _ =>
    unfold goFrame presentIf at hf
    split at hf <;> cases hf
    exact joinWords_toNat ..

end Sys2Proof.Machine
end

section
/-! SUPPORT. What a halt takes over from each array state, its notices in the queue, and the at-rest change in every array
state. -/
namespace Sys2Proof.Machine

/-! ## The state that halts (R83, R84, R89) -/

section
variable {s : State} {c : TxContext}

theorem haltView_rampDown (h : s.txe.array = .rampDown c) : haltView s = some (viewOf .rampDown c) := by simp only [haltView, h]
theorem haltView_switching (h : s.txe.array = .switching c) : haltView s = some (viewOf .switching c) := by
  simp only [haltView, h]
theorem haltView_settle {n : Nat} (h : s.txe.array = .settle c n) : haltView s = some (viewOf .settle c) := by
  simp only [haltView, h]
theorem haltView_readyUp {g : Gate} (h : s.txe.array = .readyUp c g) : haltView s = some (viewOf .readyUp c) := by
  simp only [haltView, h]
theorem haltView_rampUp {e : TowerSet} (h : s.txe.array = .rampUp c e) : haltView s = some (viewOf .rampUp c) := by
  simp only [haltView, h]

theorem haltView_active {p : Slot} (h : s.txe.array = .active p) : haltView s
    = some { step := .active, cause := s.txe.newestCause, source := none, target := p, mode := .fullMute, joint := none,
             upLen := recUp (s.recordOf p) } := by simp only [haltView, h]

end

theorem Txe.newestCause_of_head {x : Txe} {r : HistRecord} (h : r ∈ x.history.head?) : x.newestCause = r.cause := by
  rw [Txe.newestCause, Option.mem_def.1 h]
  rfl

theorem Txe.newestSeq_of_head {x : Txe} {r : HistRecord} (h : x.history.head? = some r) : x.newestSeq = r.seq := by
  rw [Txe.newestSeq, h]
  rfl

/-! ## Notices that enter in order (R171, R172) -/

theorem Cmu.enterAll_keeps {x : Record} (rs : List Record) {u : Cmu} (h : x ∈ u.reports) : x ∈ (u.enterAll rs).reports := by
  induction rs generalizing u with
  | nil => exact h
  | cons r rs ih => exact ih (Cmu.enter_keeps h r)

theorem Cmu.enterAll_length (rs : List Record) (u : Cmu) :
    (u.enterAll rs).reports.length ≤ u.reports.length + rs.length := by
  induction rs generalizing u with
  | nil => exact Nat.le_refl _
  | cons r rs ih =>
    have h1 := ih (u.enter r)
    have h2 := Cmu.enter_length_succ u r
    rw [Cmu.enterAll_cons, List.length_cons]
    omega

/-- A notice that finds room after those before it is in the queue. -/
theorem Cmu.mem_enterAll {u : Cmu} {before after : List Record} (r : Record)
    (h : u.reports.length + before.length < 32) : r ∈ (u.enterAll (before ++ [r] ++ after)).reports := by
  rw [Cmu.enterAll_append, Cmu.enterAll_append]
  refine Cmu.enterAll_keeps after (Cmu.mem_enter ?_ r)
  exact Nat.lt_of_le_of_lt (Cmu.enterAll_length before u) h

theorem withdrawnNotice_length (n : Nat) (s : State) : (withdrawnNotice n s).length ≤ 1 := by
  unfold withdrawnNotice
  cases s.txe.armed <;> simp

/-! ## The drive orders of a halt (R86) -/

theorem haltOrders_none {r : HaltReason} (h : r = .ring ∨ r = .interlock) (d : Dsy) : haltOrders r d = d := by
  rcases h with rfl | rfl <;> rfl

theorem haltOrders_ramps {r : HaltReason} (hring : r ≠ .ring) (hopen : r ≠ .interlock) (d : Dsy) :
    haltOrders r d = d.rampDownAll 256 0 := by
  cases r with
  | ring => exact absurd rfl hring
  | interlock => exact absurd rfl hopen
  | _ => rfl

/-- A ramp-down order without exceptions, tower by tower. -/
theorem rampDownAll_every (d : Dsy) (len : Nat) (k : TowerIx) : (d.rampDownAll len 0).towers[k]
    = if d.towers[k].order = .rest then d.towers[k]
      else { d.towers[k] with
        order := if d.towers[k].amp = 0 ∨ d.localPace = true then .rest else .ramp (zeroRamp d.towers[k] len) } := by
  rw [rampDownAll_tower, orderZero_tower, has_zero]
  simp only [Bool.false_eq_true, false_or]

/-! ## At-rest changes (R69, R75, R88, R98) -/

theorem allAtRest_false {d : Dsy} (h : ∃ k : TowerIx, d.atRest k = false) : d.allAtRest = false := by
  obtain ⟨k, hk⟩ := h
  rw [← Bool.not_eq_true, allAtRest_iff]
  exact fun hall => by rw [hall k] at hk; cases hk

theorem takeAtRest_muting {s : State} (ha : s.txe.array = .muting) :
    takeAtRest s = if s.dsy.allAtRest = true then enterMuted .command none s else s := by
  simp only [takeAtRest, ha]

theorem Mon.leaveActive_tower (m : Mon) (t : TowerIx) :
    m.leaveActive.towers[t] = { m.towers[t] with status := .held, count := 0 } := map_get ..

/-- Settles O49: `halt_eq` is the state a halt leaves; the at-rest change is read off `takeAtRest` state by state. -/
theorem haltKeepsTheContextAndCountsTheHalt : Obligations.HaltKeepsTheContextAndCountsTheHalt := by
  refine ⟨rfl, fun c g e n p s => ⟨haltView_rampDown, haltView_switching, haltView_settle, haltView_readyUp,
    haltView_rampUp, fun ha => ⟨_, haltView_active ha, rfl, rfl, rfl, rfl, rfl, rfl, fun r => Txe.newestCause_of_head⟩⟩,
    fun x c => rfl, fun reason subject v s hv => ?halts, fun c s ha => ⟨takeAtRest_rampDown ha, ?stays⟩,
    fun c n g e p r s ha => ?quiet, fun h s ha => ⟨fun hq => ?noticed, fun hfresh hrest => ?notes⟩,
    fun s ha => ⟨fun hmoving => ?muting, fun hrest => ?muted⟩, fun s => ⟨fun hn => ?_, fun o ho => ?_⟩,
    fun m => ⟨rfl, m.leaveActive_tower⟩⟩
  case halts =>
    intro t
    have heq := halt_eq reason subject hv
    have ht : t = halt reason subject s := rfl
    rw [heq] at ht
    have hdsy : t.dsy = haltOrders reason s.dsy := by rw [ht]
    refine ⟨by rw [ht], by rw [ht], by rw [ht], by rw [ht], by rw [ht], by rw [ht], by rw [ht], by rw [ht], by rw [ht],
      ⟨_, by rw [ht], rfl, rfl, rfl, rfl, rfl, rfl, rfl, rfl, rfl, rfl, ?_, by rw [ht]⟩,
      fun r => Txe.newestSeq_of_head, fun r rs hr => ?_, fun hroom => ?_, fun hreason => ?_, fun hring hopen => ?_⟩
    · rw [hdsy]
      exact allAtRest_iff _
    · rw [ht]
      exact congrArg countHalt hr
    · rw [ht, List.append_assoc]
      refine Cmu.mem_enterAll _ ?_
      have := withdrawnNotice_length 4 s
      omega
    · rw [hdsy, haltOrders_none hreason]
    · rw [hdsy, haltOrders_ramps hring hopen]
      exact ⟨(rampDownAll_spec s.dsy 256 0).1, rampDownAll_every s.dsy 256⟩
  case stays =>
    rintro ⟨k, hblend, hmoving⟩
    exact takeAtRest_rampDown_stays ha hblend hmoving
  case quiet =>
    simp only [List.mem_cons, List.not_mem_nil, or_false] at ha
    rcases ha with ha | ha | ha | ha | ha | ha | ha <;> simp only [takeAtRest, ha]
  case noticed =>
    rw [takeAtRest_halted_eq ha, if_neg]
    rintro ⟨hfresh, hrest⟩
    rcases hq with hq | hq
    · rw [hfresh] at hq; cases hq
    · rw [allAtRest_false hq] at hrest; cases hrest
  case notes =>
    rw [takeAtRest_halted_eq ha, if_pos ⟨hfresh, (allAtRest_iff _).2 hrest⟩]
    rfl
  case muting =>
    rw [takeAtRest_muting ha, if_neg]
    rw [allAtRest_false hmoving]
    exact Bool.noConfusion
  case muted =>
    rw [takeAtRest_muting ha, if_pos ((allAtRest_iff _).2 hrest)]
    rfl
  case _ => simp only [tellStopped, discardDeferred, State.setMon_scu, hn]
  case _ => simp only [tellStopped, discardDeferred, State.setMon_scu, ho]

end Sys2Proof.Machine
end

section
/-! SUPPORT. The start of RAMP_UP, the ramp-ended reports, the completion and what MON and SCU do on it. -/
namespace Sys2Proof.Machine

/-! ## Cabinets (R73) -/

/-- In a rising list the first that satisfies a test is the lowest. -/
theorem find?_eq_lowest {n : Nat} {q : Fin n → Bool} {t : Fin n} {l : List (Fin n)} (hl : l.Pairwise (· < ·)) (ht : t ∈ l)
    (hq : q t = true) (hlow : ∀ u, u < t → q u = false) : l.find? q = some t := by
  induction l with
  | nil => cases ht
  | cons x l ih =>
    obtain ⟨hx, hl⟩ := List.pairwise_cons.1 hl
    rcases List.mem_cons.1 ht with rfl | ht
    · rw [List.find?_cons_of_pos hq]
    · have hqx : ¬ q x = true := by rw [hlow x (hx t ht)]; exact Bool.noConfusion
      rw [List.find?_cons_of_neg hqx]
      exact ih hl ht

section
variable {s : State} {k : Slot}

theorem firstNotReady_some {t : TowerIx} (ht : has (recTowers (s.recordOf k)) t = true)
    (hready : s.dsy.towers[t].ready = false)
    (hlow : ∀ u : TowerIx, u < t → has (recTowers (s.recordOf k)) u = true → s.dsy.towers[u].ready = true) :
    firstNotReady s k = some t := by
  refine find?_eq_lowest (by decide) (mem_allTowers t) (by rw [ht, hready]; rfl) fun u hu => ?_
  cases hhas : has (recTowers (s.recordOf k)) u with
  | false => rfl
  | true => rw [hlow u hu hhas]; rfl

theorem firstNotReady_none
    (h : ∀ t : TowerIx, has (recTowers (s.recordOf k)) t = true → s.dsy.towers[t].ready = true) :
    firstNotReady s k = none := by
  refine List.find?_eq_none.2 fun t _ hbad => ?_
  rw [Bool.and_eq_true, Bool.not_eq_true'] at hbad
  obtain ⟨hhas, hready⟩ := hbad
  rw [h t hhas] at hready
  cases hready

end

/-! ## Ramp orders to a pattern (R25, R73) -/

theorem orderPattern_tower (d : Dsy) (p : Pst) (k : Slot) (len : Nat) (u t : TowerIx) :
    (d.orderPattern p k len u).towers[t] = if t = u ∧ d.ilkClosed = true ∧ d.localPace = false then
      { d.towers[t] with order := .ramp (patternRamp p k t d.towers[t] len) } else d.towers[t] := by
  by_cases hoff : d.ilkClosed = false ∨ d.localPace = true
  · rw [orderPattern_off hoff, if_neg]
    rintro ⟨_, hclosed, hpace⟩
    rw [hclosed, hpace] at hoff
    cases hoff <;> contradiction
  · have hclosed : d.ilkClosed = true := by simpa using fun h => hoff (.inl h)
    have hpace : d.localPace = false := by simpa using fun h => hoff (.inr h)
    rw [orderPattern_on hclosed hpace]
    simp only [setAt_get, hclosed, hpace, and_true]
    split
    next h => rw [h]
    next => rfl

theorem foldl_orderPattern_tower (p : Pst) (k : Slot) (len : Nat) (x : TowerSet) (t : TowerIx) {l : List TowerIx}
    (hl : l.Nodup) (d : Dsy) : (l.foldl (fun d u => if has x u then d.orderPattern p k len u else d) d).towers[t]
      = if t ∈ l ∧ has x t = true ∧ d.ilkClosed = true ∧ d.localPace = false then
          { d.towers[t] with order := .ramp (patternRamp p k t d.towers[t] len) } else d.towers[t] := by
  induction l generalizing d with
  | nil => rw [if_neg fun h => nomatch h.1]; rfl
  | cons u l ih =>
    obtain ⟨hu, hl⟩ := List.nodup_cons.1 hl
    have hkept := orderPattern_reordered d p k len u
    rw [List.foldl_cons]
    by_cases hx : has x u = true
    · rw [if_pos hx, ih hl, hkept.ilkClosed, hkept.localPace, orderPattern_tower]
      by_cases ht : t = u
      · subst ht
        simp only [hu, hx, List.mem_cons_self, false_and, true_and, if_false]
      · simp only [ht, List.mem_cons, false_or, false_and, if_false]
    · rw [if_neg hx, ih hl]
      by_cases ht : t = u
      · subst ht
        rw [if_neg fun h => hu h.1, if_neg fun h => hx h.2.1]
      · simp only [ht, List.mem_cons, false_or]

/-- RAMP_UP orders a ramp to every tower of the set, unless the interlock stands open or DSY is at the local pace. -/
theorem rampUpAll_tower (d : Dsy) (p : Pst) (k : Slot) (len : Nat) (x : TowerSet) (t : TowerIx) :
    (d.rampUpAll p k len x).towers[t] = if has x t = true ∧ d.ilkClosed = true ∧ d.localPace = false then
      { d.towers[t] with order := .ramp (patternRamp p k t d.towers[t] len) } else d.towers[t] := by
  refine (foldl_orderPattern_tower p k len x t (l := allTowers) (by decide) d).trans ?_
  simp only [mem_allTowers, true_and]

theorem startRampUp_refused {s : State} {c : TxContext} {t : TowerIx} (h : firstNotReady s c.target = some t) :
    startRampUp c s = halt .cabinet (.tower t) (s.setArray (.rampUp c 0)) := by
  simp only [startRampUp, h]

theorem startRampUp_ready {s : State} {c : TxContext} (h : firstNotReady s c.target = none) :
    startRampUp c s = (s.setArray (.rampUp c 0)).setDsy
      (s.dsy.rampUpAll s.pst c.target c.upLen (recTowers (s.recordOf c.target))) := by
  simp only [startRampUp, h]

/-! ## Ramp-ended reports (R74) -/

/-- The towers whose ramp to the target has ended, with those of one frame's reports. -/
def endedWith (k : Slot) (ends : List (TowerIx × RampEnd)) (ended : TowerSet) : TowerSet :=
  ends.foldl (fun m x => if x.2 = .pattern k then insertIx m x.1 else m) ended

theorem has_endedWith (k : Slot) (ends : List (TowerIx × RampEnd)) (ended : TowerSet) (t : TowerIx) :
    has (endedWith k ends ended) t = true ↔ has ended t = true ∨ (t, RampEnd.pattern k) ∈ ends := by
  unfold endedWith
  induction ends generalizing ended with
  | nil => simp
  | cons x l ih =>
    obtain ⟨u, e⟩ := x
    rw [List.foldl_cons, ih]
    by_cases he : e = .pattern k
    · subst he
      simp only [if_true, has_insertIx, Bool.or_eq_true, decide_eq_true_eq, List.mem_cons, Prod.mk.injEq, and_true, or_assoc]
    · simp only [he, if_false, List.mem_cons, Prod.mk.injEq, eq_comm (a := RampEnd.pattern k), and_false, false_or]

theorem takeRampEnds_rampUp {s : State} {c : TxContext} {ended : TowerSet} (ha : s.txe.array = .rampUp c ended)
    (ends : List (TowerIx × RampEnd)) : takeRampEnds ends s
      = if recTowers (s.recordOf c.target) &&& ~~~(endedWith c.target ends ended) = 0 then complete c s
        else s.setArray (.rampUp c (endedWith c.target ends ended)) := by
  unfold takeRampEnds
  rw [ha]
  rfl

/-- No tower of a set is left over. -/
theorem left_eq_zero_iff {n : Nat} (x y : BitVec n) :
    x &&& ~~~y = 0 ↔ ∀ t : Fin n, has x t = true → has y t = true := by
  rw [set_eq_zero]
  refine forall_congr' fun t => ?_
  rw [has_and, has_not]
  cases has x t <;> cases has y t <;> decide

/-! ## Completion (R74) -/

/-- The first two characters of a label as a word (11.3). -/
theorem label_high_word (l : Label) :
    (labelChar l 0).setWidth 16 <<< 8 ||| (labelChar l 1).setWidth 16 = l.extractLsb' 16 16 := by
  ext i hi
  by_cases h : i < 8
  · simp [labelChar, h]
  · simp [labelChar, h, show i - 8 < 8 by omega, show 24 + (i - 8) = 16 + i by omega]

/-! ## MON and SCU on the entry to ACTIVE (R108, R132) -/

section
variable (s : State)

@[simp] theorem request_mon (k : Slot) (m : ReqMode) (f : Option FrameNum) (c : Cause) :
    (request k m f c s).1.mon = s.mon := by
  unfold request
  repeat' split
  all_goals rfl

@[simp] theorem defer_mon (o : Occurrence) : (defer o s).mon = s.mon := by
  unfold defer
  repeat' split
  all_goals rfl

@[simp] theorem settleDue_mon (o : Occurrence) (a : ReqAnswer) : (settleDue o a s).mon = s.mon := by
  simp only [settleDue, raiseDue, State.raise_mon, apply_ite State.mon, State.setScu_mon, defer_mon, ite_self]

@[simp] theorem actOn_mon (o : Occurrence) (f : Option FrameNum) : (actOn o f s).mon = s.mon := by
  unfold actOn
  split
  · rfl
  · rw [settleDue_mon, request_mon]

theorem offerDeferred_mon : (offerDeferred s).mon = s.mon := by
  unfold offerDeferred
  split
  · rfl
  · rw [actOn_mon]; rfl

theorem tellActive_mon (p : Slot) :
    (tellActive p s).mon = s.mon.enterActive p (recTowers (s.recordOf p)) (recHoldOff (s.recordOf p)) :=
  offerDeferred_mon _

end

theorem tellActive_alone {s : State} (h : s.scu.deferred = none) (p : Slot) :
    tellActive p s = s.setMon (tellActive p s).mon := by
  rw [tellActive_mon]
  simp only [tellActive, offerDeferred, State.setMon_scu, h]

/-- The deferred entry is removed and acted on for the next frame (R132; log 41). -/
theorem tellActive_offers {s : State} {o : Occurrence} (h : s.scu.deferred = some o) (p : Slot) :
    tellActive p s = actOn o none ((s.setMon (tellActive p s).mon).setScu { s.scu with deferred := none }) := by
  rw [tellActive_mon]
  simp only [tellActive, offerDeferred, State.setMon_scu, h]

theorem actOn_unlisted {s : State} {o : Occurrence} (h : s.scu.table[o.entry] = none) (f : Option FrameNum) :
    actOn o f s = s := by
  simp only [actOn, h]

theorem actOn_listed {s v : State} {o : Occurrence} {e : SchedEntry} {f : Option FrameNum} {a : ReqAnswer}
    (h : s.scu.table[o.entry] = some e) (hr : request e.target e.mode f .schedule s = (v, a)) :
    actOn o f s = settleDue o a v := by
  simp only [actOn, h, hr]

/-- Settles O48: the cabinet test and the orders tower by tower, the reports as a set, then the completion and its offer. -/
theorem rampUpStartsAndCompletes : Obligations.RampUpStartsAndCompletes := by
  refine ⟨fun c s => ?start, fun ends c ended s ha => ?reports, fun ends s h => takeRampEnds_outside h ends,
    fun c h hs s hh hopen => ?completes, fun p s => ?tells⟩
  case start =>
    intro x
    refine ⟨fun t ht hready hlow => ?_, fun hready => ?_⟩
    · have hstart := startRampUp_refused (firstNotReady_some ht hready hlow)
      refine ⟨hstart, ?_⟩
      rw [hstart]
      obtain ⟨_, h, ha, hreason, hsubject, hstep, hsource, htarget⟩ :=
        halt_record .cabinet (.tower t) (haltView_rampUp (s := s.setArray (.rampUp c 0)) rfl)
      exact ⟨h, ha, hreason, hsubject, hstep, hsource, htarget⟩
    · rw [startRampUp_ready (firstNotReady_none hready)]
      refine ⟨?_, rampUpAll_tower _ _ _ _ _⟩
      exact congrArg (s.setArray (.rampUp c 0)).setDsy (rampUpAll_reordered ..).eq
  case reports =>
    intro x done
    have hends := takeRampEnds_rampUp ha ends
    have hleft := left_eq_zero_iff x (endedWith c.target ends ended)
    have hdone : ∀ t, has (endedWith c.target ends ended) t = true ↔ done t := has_endedWith c.target ends ended
    refine ⟨fun ⟨t, ht, hnot⟩ => ⟨_, ?_, hdone⟩, fun hall => ?_⟩
    · rw [hends, if_neg fun h => hnot ((hdone t).1 (hleft.1 h t ht))]
      rfl
    · rw [hends, if_pos (hleft.2 fun t ht => (hdone t).2 (hall t ht))]
  case completes =>
    have hclose : closeNewest .completed s.txe.now s.txe.history
        = { h with outcome := .completed, endFrame := some s.txe.now } :: hs := by
      rw [hh, closeNewest, if_pos hopen]
    simp only [complete, closeRecord, State.setHistory, State.setArray, State.setTxe_txe, State.setTxe_dsy, hclose,
      raiseCompleted, State.setDsy_txe, label_high_word]
    rfl
  case tells =>
    have hmon := tellActive_mon s p
    refine ⟨by rw [hmon]; rfl, by rw [hmon]; rfl, by rw [hmon]; rfl, fun t => by rw [hmon]; exact ofFn_get .., fun hn => ?_,
      fun o ho => ?_⟩
    · rw [tellActive_alone hn]
      exact ⟨rfl, rfl, rfl⟩
    · intro u
      rw [tellActive_offers ho]
      exact ⟨fun he => actOn_unlisted (s := u) he none, fun e v a he hr => actOn_listed (s := u) he hr⟩

end Sys2Proof.Machine
end

section
/-! SUPPORT. The entry to RAMP_DOWN, the context of an armed transition, and the frame events of an Armed Request. -/
namespace Sys2Proof.Machine

/-! ## The entry to RAMP_DOWN (R68) -/

/-- Every tower outside a set of blend towers is at rest. -/
theorem restIn_not_iff (d : Dsy) (b : TowerSet) :
    d.restIn (~~~b) = true ↔ ∀ t : TowerIx, has b t = true ∨ d.atRest t = true := by
  rw [restIn_iff]
  refine forall_congr' fun t => ?_
  rw [has_not]
  cases has b t <;> simp

section
variable {c : TxContext} {s : State}

theorem enterRampDown_passes (h : (s.dsy.rampDownAll c.downLen c.blend).restIn (~~~c.blend) = true) : enterRampDown c s
    = enterSwitching c ((s.setArray (.rampDown c)).setDsy (s.dsy.rampDownAll c.downLen c.blend)) := if_pos h

theorem enterRampDown_stays (h : ¬ (s.dsy.rampDownAll c.downLen c.blend).restIn (~~~c.blend) = true) :
    enterRampDown c s = (s.setArray (.rampDown c)).setDsy (s.dsy.rampDownAll c.downLen c.blend) := if_neg h

/-- A tower that is driven and no blend tower is ordered down. -/
theorem rampDownAll_driven {d : Dsy} {b : TowerSet} {k : TowerIx} (len : Nat) (hblend : has b k = false)
    (horder : d.towers[k].order ≠ .rest) (hamp : d.towers[k].amp ≠ 0) (hpace : d.localPace = false) :
    (d.rampDownAll len b).towers[k] = { d.towers[k] with order := .ramp (zeroRamp d.towers[k] len) } := by
  have hordered : ¬ (has b k = true ∨ d.towers[k].order = .rest) := by simpa only [hblend, Bool.false_eq_true, false_or]
  have hramp : ¬ (d.towers[k].amp = 0 ∨ d.localPace = true) := by simpa only [hpace, Bool.false_eq_true, or_false]
  rw [rampDownAll_tower, if_neg hordered, orderZero_tower, if_neg hramp]

theorem rampDownAll_blend {d : Dsy} {b : TowerSet} {k : TowerIx} (len : Nat) (hblend : has b k = true) :
    (d.rampDownAll len b).towers[k] = d.towers[k] := by
  rw [rampDownAll_tower, if_pos (.inl hblend)]

/-- While a tower outside the blend set is driven, RAMP_DOWN is stayed in. -/
theorem enterRampDown_driven {k : TowerIx} (hblend : has c.blend k = false) (horder : s.dsy.towers[k].order ≠ .rest)
    (hamp : s.dsy.towers[k].amp ≠ 0) (hpace : s.dsy.localPace = false) :
    enterRampDown c s = (s.setArray (.rampDown c)).setDsy (s.dsy.rampDownAll c.downLen c.blend) := by
  refine enterRampDown_stays fun hrest => ?_
  have hk := ((restIn_not_iff ..).1 hrest k).resolve_left (by rw [hblend]; exact Bool.noConfusion)
  obtain ⟨_, hramp⟩ := (Dsy.atRest_iff ..).1 hk
  rw [rampDownAll_driven c.downLen hblend horder hamp hpace] at hramp
  exact hramp _ rfl

end

/-- What the entry to RAMP_DOWN leaves of the engine: the transition of c in a phase or halted, nothing armed, and the history
but for halts counted in an OPEN newest record. -/
structure RampDownEntered (c : TxContext) (s t : State) : Prop where
  array   : (∃ d, t.txe.array.context = some d ∧ c.Same d) ∨ ∃ h, t.txe.array = .halted h ∧ c.Halts h
  armed   : s.txe.armed = none → t.txe.armed = none
  seq     : t.txe.seq = s.txe.seq
  frame   : t.txe.frame = s.txe.frame
  history : HistoryKept s.txe.history t.txe.history

theorem enterRampDown_entered (c : TxContext) (s : State) : RampDownEntered c s (enterRampDown c s) := by
  rcases enterRampDown_cases s c with ⟨hstay, _⟩ | ⟨hgoes, _⟩
  · rw [hstay]
    exact ⟨.inl ⟨c, rfl, .refl c⟩, id, rfl, rfl, .refl _⟩
  · refine ⟨?_, hgoes.armed, hgoes.seq, hgoes.frame, hgoes.history⟩
    rcases hgoes.runs with ⟨d, hd, hsame, _⟩ | hhalt
    · exact .inl ⟨d, hd, hsame⟩
    · exact .inr hhalt

/-! ## The context of an armed transition (R65, R66, R67) -/

/-- BLEND when named, with a source, and permitted by both (R65). -/
theorem resolveMode_eq (s : State) (m : ReqMode) (source : Option Slot) (k : Slot) : resolveMode s m source k
    = if (m = .blend ∨ (m = .default ∧ recMode (s.recordOf k) = .blend))
        ∧ (∃ p, source = some p ∧ recBlend (s.recordOf p) = true) ∧ recBlend (s.recordOf k) = true then .blend
      else .fullMute := by
  have hnamed : (if m = .default then recMode (s.recordOf k) else m) = .blend
      ↔ m = .blend ∨ (m = .default ∧ recMode (s.recordOf k) = .blend) := by
    cases m <;> simp
  cases source <;> simp [resolveMode, hnamed]

theorem downLength_eq (s : State) (override : Option Nat) (source : Option Slot) : downLength s override source
    = override.getD ((source.map fun p => recDown (s.recordOf p)).getD 256) := by
  cases override <;> cases source <;> rfl

/-- The blend towers: in both tower sets and not switched (R67). -/
theorem has_blendTowers (s : State) (mode : Mode) (source : Option Slot) (k : Slot) (t : TowerIx) :
    has (blendTowers s mode source k) t = true ↔ mode = .blend ∧ ¬ has (switchedTowers s k) t = true
      ∧ has (recTowers (s.recordOf k)) t = true
      ∧ ∃ p, source = some p ∧ has (recTowers (s.recordOf p)) t = true := by
  cases mode <;> cases source <;> simp [blendTowers, and_comm]

/-! ## Starts (R65, R80, R81) -/

theorem closeNewest_cons (o : HistOutcome) (f : FrameNum) (h : HistRecord) (hs : List HistRecord) : closeNewest o f (h :: hs)
    = (if h.outcome = .opened then { h with outcome := o, endFrame := some f } else h) :: hs := by
  rw [closeNewest]
  split <;> rfl

/-- The history that a start opens its record over: out of HALTED the halted record is closed (R65 step 2). -/
def historyAtStart (n : FrameNum) (x : Txe) : List HistRecord :=
  if x.array.haltContext.isSome then closeNewest .abandoned n x.history else x.history

theorem abandonHalted_eq (n : FrameNum) (s : State) : abandonHalted n s = s.setHistory (historyAtStart n s.txe) := by
  unfold abandonHalted historyAtStart
  cases s.txe.array <;> rfl

/-- The record that a start opens (R81). -/
def recordAtStart (c : TxContext) (n : FrameNum) (s : State) : HistRecord :=
  { seq := s.txe.seq, cause := c.cause, source := c.source, target := c.target, label := s.pst.label c.target,
    mode := c.mode, joint := c.joint.isSome, start := n, endFrame := none, outcome := .opened, halts := 0 }

/-- The state in which the transition of an Armed Request enters RAMP_DOWN (R65 steps 1 to 4). -/
def armedStarted (c : TxContext) (n : FrameNum) (s : State) : State :=
  (s.setTxe { s.txe with
    frame := some n
    armed := none
    seq := s.txe.seq + 1
    history := recordAtStart c n s :: (historyAtStart n s.txe).take 7 }).setCtu { s.ctu with guard := none }

theorem startArmed_eq (a : Armed) (n : FrameNum) (s : State) : startArmed a n (s.setTxe { s.txe with frame := some n })
    = tellStarted a.cause (raiseStarted (armedContext s a) s.txe.seq
        (enterRampDown (armedContext s a) (armedStarted (armedContext s a) n s))) := by
  unfold startArmed
  rw [abandonHalted_eq]
  rfl

/-! ## Frame events (R64) -/

theorem frameEvent_armed {s : State} {a : Armed} (h : s.txe.armed = some a) (n : FrameNum) (b : Bool) :
    frameEvent n b s = examineArmed a n b (s.setTxe { s.txe with frame := some n }) := by
  simp only [frameEvent, State.setTxe_txe, h]

theorem withdraw_some {s : State} {a : Armed} (h : s.txe.armed = some a) (r : WithdrawReason) : withdraw r s
    = (s.setTxe { s.txe with armed := none }).raise .armedWithdrawn (subjectOf a.target.val)
        ([word r.code] ++ twoWords a.frame ++ [word a.cause.code]) := by
  simp only [withdraw, h]
  rfl

section
variable {a : Armed} {n : FrameNum} {s : State}

theorem examineArmed_renumbered : examineArmed a n true s = withdraw .renumber s := rfl

theorem examineArmed_passed (hn : n ≠ a.frame) (h : 2 ^ 31 ≤ (a.frame - n).toNat) :
    examineArmed a n false s = withdraw .passed s := by
  have hbehind : ¬ isAhead a.frame n = true := by rw [isAhead_iff hn]; exact Nat.not_lt.2 h
  unfold examineArmed
  rw [if_neg Bool.noConfusion, if_neg hn, if_neg hbehind]

theorem examineArmed_waits (hn : n ≠ a.frame) (h : (a.frame - n).toNat < 2 ^ 31) : examineArmed a n false s = s := by
  unfold examineArmed
  rw [if_neg Bool.noConfusion, if_neg hn, if_pos ((isAhead_iff hn).2 h)]

theorem examineArmed_starts (hn : n = a.frame) : examineArmed a n false s = startArmed a n s := by
  unfold examineArmed
  rw [if_neg Bool.noConfusion, if_pos hn]

end

/-- Settles O47: `examineArmed` case by case; a start is `startArmed_eq`, and what RAMP_DOWN leads to is
`enterRampDown_entered`, or `enterRampDown_driven` while a tower is driven. -/
theorem frameEventsStartTheArmedTransition : Obligations.FrameEventsStartTheArmedTransition := by
  refine ⟨fun c s => ?_, fun x s => rfl, fun o f h hs => ⟨rfl, closeNewest_cons o f h hs⟩, rfl, rfl,
    fun n b s harmed hgo => frameEvent_alone harmed hgo n b, fun a n b s harmed => ?armed⟩
  · intro u
    refine ⟨fun h => enterRampDown_passes ((restIn_not_iff ..).2 h), fun ⟨t, hblend, hmoving⟩ => enterRampDown_stays fun h => ?_⟩
    rcases (restIn_not_iff ..).1 h t with h | h
    · rw [hblend] at h; cases h
    · exact Bool.noConfusion (hmoving.symm.trans h)
  case armed =>
    intro u withdrawn t
    have ht : t = examineArmed a n b u := frameEvent_armed harmed n b
    have hu : u.txe.armed = some a := harmed
    refine ⟨fun hb => ?_, fun hb hn hpassed => ?_, fun hb hn hahead => ?_, fun hb hn => ?start⟩
    · rw [ht, hb, examineArmed_renumbered, withdraw_some hu]; rfl
    · rw [ht, hb, examineArmed_passed hn hpassed, withdraw_some hu]; rfl
    · rw [ht, hb, examineArmed_waits hn hahead]
    case start =>
      intro source named mode down up switched blends driven
      have hmode : (armedContext s a).mode = mode := resolveMode_eq s a.mode source a.target
      have hdown : (armedContext s a).downLen = down := downLength_eq s a.down source
      have hblend : ∀ k, has (armedContext s a).blend k = true ↔ blends k := fun k => by
        refine (has_blendTowers s (armedContext s a).mode source a.target k).trans ?_
        rw [hmode, has_switchedTowers]
        simp only [blends, switched, exists_and_left]
      have hsets : SetsOfStart (armedContext s a) s := formContext_sets ..
      rw [hb, examineArmed_starts hn, startArmed_eq] at ht
      have hentered := enterRampDown_entered (armedContext s a) (armedStarted (armedContext s a) n s)
      have hkeeps := enterRampDown_keeps (armedStarted (armedContext s a) n s) (armedContext s a)
      have htxe : t.txe = (enterRampDown (armedContext s a) (armedStarted (armedContext s a) n s)).txe := by rw [ht]; rfl
      obtain ⟨halts, hhistory⟩ := hentered.history _ _ rfl rfl rfl
      refine ⟨htxe ▸ hentered.armed rfl, htxe ▸ hentered.frame, htxe ▸ hentered.seq, by rw [ht]; exact hkeeps.rif,
        by rw [ht]; exact hkeeps.pst, by rw [ht]; exact hkeeps.ldu,
        ⟨_, (congrArg Txe.history htxe).trans hhistory, rfl, rfl, rfl, rfl, rfl, hmode, rfl, rfl, rfl, rfl⟩,
        ⟨recordAtStart (armedContext s a) n s, armedContext s a, rfl, rfl, rfl, rfl, rfl, hmode, rfl, rfl, rfl, rfl, rfl,
          rfl, rfl, rfl, hmode, rfl, hdown, rfl, hblend, hsets, ?whole⟩, ?array, fun ⟨k, hk⟩ => ?driven⟩
      case whole => rw [ht, raiseStarted, hmode]; rfl
      case array =>
        rw [htxe]
        rcases hentered.array with ⟨d, hd, hsame⟩ | ⟨h, hh, hsame⟩
        · refine .inl ⟨d, hd, hsame.cause, hsame.source, hsame.target, hsame.mode.trans hmode, hsame.joint,
            hsame.down.trans hdown, hsame.up, fun k => ?_⟩
          rw [hsame.blend]
          exact hblend k
        · exact .inr ⟨h, hh, hsame.cause, hsame.source, hsame.target, hsame.mode.trans hmode, hsame.joint, hsame.up⟩
      case driven =>
        have unblended : ∀ {j}, ¬ blends j → has (armedContext s a).blend j = false := fun hj => by
          rw [← Bool.not_eq_true, hblend]; exact hj
        obtain ⟨hk, horder, hamp, hpace⟩ := hk
        rw [enterRampDown_driven (unblended hk) (s := armedStarted (armedContext s a) n s) horder hamp hpace] at ht
        have hdsy : t.dsy = s.dsy.rampDownAll down (armedContext s a).blend := by rw [ht, hdown]; rfl
        refine ⟨⟨armedContext s a, by rw [ht]; rfl⟩, by rw [ht]; rfl, fun j hj => ?_, fun j hj => ?_⟩
        · obtain ⟨hj, horder, hamp, _⟩ := hj
          rw [hdsy, rampDownAll_driven down (unblended hj) horder hamp hpace]
        · rw [hdsy, rampDownAll_blend down ((hblend j).2 hj)]

end Sys2Proof.Machine
end

section
/-! SUPPORT. MUTE in each array state: the array taken down as the state it leaves, and the answer. -/
namespace Sys2Proof.Machine

/-! ## MUTE (R94 to R97) -/

theorem exec_mute {m : Mgmt} {s : State} (h : Serves .mute m s) : exec .mute s = .next (finishCommand m (muteBody m s)) :=
  congrArg Host.Outcome.next (serve_served h muteBody)

theorem withdraw_none {s : State} (h : s.txe.armed = none) (r : WithdrawReason) : withdraw r s = s := by
  simp only [withdraw, h]

/-- The towers ordered down, then MUTED with its notices when every tower is at rest and MUTING otherwise (R95, R99); the orders
leave the pace of DSY alone, so the notices carry the frame number of s. -/
theorem muteTowers_eq {s : State} {len : Nat} {rest : Bool} (hrest : (s.dsy.rampDownAll len 0).allAtRest = rest) :
    muteTowers len s = { s with
      txe := { s.txe with array := if rest then .muted none else .muting }
      dsy := s.dsy.rampDownAll len 0
      mon := s.mon.leaveActive
      scu := if rest then { s.scu with deferred := none } else s.scu
      cmu := if rest then s.cmu.enterAll ([mutedNotice none 1 s] ++ discardedNotice s) else s.cmu } := by
  have hstamp := stamp_setDsy (rampDownAll_reordered s.dsy len 0).localPace
  unfold muteTowers
  generalize s.dsy.rampDownAll len 0 = d at hrest hstamp
  cases rest with
  | true =>
    have hmuted : mutedNotice none 1 (s.setDsy d) = mutedNotice none 1 s := by rw [mutedNotice, hstamp]; rfl
    have hdiscarded : discardedNotice (s.setDsy d) = discardedNotice s := by rw [discardedNotice, hstamp]; rfl
    refine (if_pos hrest).trans ?_
    rw [enterMuted_eq, hdiscarded, ← hmuted]
    rfl
  | false => exact if_neg (by rw [State.setDsy_dsy, hrest]; exact Bool.noConfusion)

/-- The state whose towers MUTE orders down: the OPEN record of a phase or a halt closed MUTED, and the guard NONE out of ACTIVE
and a phase (R95 to R97). -/
def muteClosed (s : State) : State :=
  { s with
    txe := { s.txe with history := if s.txe.array.activeSlot.isSome then s.txe.history
                                   else closeNewest .muted s.txe.now s.txe.history }
    ctu := { s.ctu with guard := if s.txe.array.haltContext.isSome then s.ctu.guard else none } }

theorem muteArray_down {s : State} (h : (∃ p, s.txe.array = .active p) ∨ (∃ c, s.txe.array.context = some c)
    ∨ ∃ h, s.txe.array = .halted h) (len : Nat) : muteArray len s = muteTowers len (muteClosed s) := by
  unfold muteArray muteClosed
  cases ha : s.txe.array with
  | unset | muting | muted r => rw [ha] at h; simp [ArrayState.context] at h
  | _ => rfl

theorem muteArray_off {s : State} (h : s.txe.array = .unset ∨ s.txe.array = .muting) (len : Nat) : muteArray len s = s := by
  rcases h with h | h <;> simp only [muteArray, h]

theorem muteArray_muted {s : State} {r : Option Slot} (h : s.txe.array = .muted r) (len : Nat) :
    muteArray len s = s.setArray (.muted none) := by simp only [muteArray, h]

theorem withdraw_array (r : WithdrawReason) (s : State) : (withdraw r s).txe.array = s.txe.array := by rw [withdraw_txe]

/-- MUTE with towers to take down is answered by whether it enters MUTING (R94). -/
theorem exec_mute_down {m : Mgmt} {s : State} (hs : Serves .mute m s)
    (h : (∃ p, s.txe.array = .active p) ∨ (∃ c, s.txe.array.context = some c) ∨ ∃ h, s.txe.array = .halted h) :
    exec .mute s = .next (answered m
      (if (muteTowers (muteLength m) (muteClosed (withdraw .mute s))).txe.array.isMuting then .started else .done) []
      (muteTowers (muteLength m) (muteClosed (withdraw .mute s)))) := by
  have hdown := muteArray_down (s := withdraw .mute s) (by rwa [withdraw_array]) (muteLength m)
  have hmuting : s.txe.array.isMuting = false := by
    cases ha : s.txe.array with
    | muting => rw [ha] at h; simp [ArrayState.context] at h
    | _ => rfl
  rw [exec_mute hs, muteBody, hdown, hmuting, Bool.not_false, Bool.true_and]
  rfl

/-- What MUTE leaves of a state with towers to take down (R95 to R97, R99). -/
theorem muteTowers_closed {s : State} {len : Nat} {rest : Bool} (hrest : (s.dsy.rampDownAll len 0).allAtRest = rest) :
    muteTowers len (muteClosed (withdraw .mute s)) = { s with
      txe := { s.txe with
        array := if rest then .muted none else .muting
        armed := none
        history := if s.txe.array.activeSlot.isSome then s.txe.history else closeNewest .muted s.txe.now s.txe.history }
      dsy := s.dsy.rampDownAll len 0
      ctu := { s.ctu with guard := if s.txe.array.haltContext.isSome then s.ctu.guard else none }
      mon := s.mon.leaveActive
      scu := if rest then { s.scu with deferred := none } else s.scu
      cmu := if rest then (withdraw .mute s).cmu.enterAll ([mutedNotice none 1 s] ++ discardedNotice s)
             else (withdraw .mute s).cmu } := by
  have hdsy : (muteClosed (withdraw .mute s)).dsy = s.dsy := by rw [withdraw_eq]; rfl
  rw [← hdsy] at hrest
  rw [muteTowers_eq hrest, withdraw_eq]
  rfl

theorem ArrayState.haltContext_of_other {a : ArrayState} (h : ∀ x, a ≠ .halted x) : a.haltContext = none := by
  cases a with
  | halted x => exact absurd rfl (h x)
  | _ => rfl

/-- Settles O28: in each state with towers to take down MUTE leaves `muteTowers_closed`, split on whether every tower is at rest
after the orders; each tower's order is `rampDownAll_every`. -/
theorem muteTakesTheArrayDown : Obligations.MuteTakesTheArrayDown := by
  refine ⟨fun m => rfl, fun m s hs => ⟨fun h => withdraw_none h _, fun a ha => withdraw_some ha _, fun h => ?off,
    fun r hr => ?muted, fun h => ?down⟩⟩
  case off =>
    have hbody : muteBody m s = (withdraw .mute s, answer .done []) := by
      rw [muteBody, muteArray_off (by rwa [withdraw_array])]
      rcases h with h | h <;> simp only [withdraw_array, h] <;> rfl
    rw [exec_mute hs, hbody]
    rfl
  case muted =>
    rw [exec_mute hs, muteBody, muteArray_muted (by rw [withdraw_array, hr]), hr]
    rfl
  case down =>
    obtain ⟨rest, hrest⟩ : ∃ rest, (s.dsy.rampDownAll (muteLength m) 0).allAtRest = rest := ⟨_, rfl⟩
    have htower := rampDownAll_every s.dsy (muteLength m)
    have hordered := (rampDownAll_spec s.dsy (muteLength m) 0).1
    refine ⟨_, _, exec_mute_down hs h, ?_⟩
    rw [muteTowers_closed hrest]
    generalize s.dsy.rampDownAll (muteLength m) 0 = d at hrest htower hordered ⊢
    refine ⟨fun hall => ?rests, fun hmoving => ?moves, rfl, rfl, rfl, rfl, rfl, fun hother => ?guard, rfl, rfl, rfl, rfl,
      hordered, fun k => ⟨fun ho => ?_, fun ho hzero => ?_, fun ho hamp hpace => ?_⟩⟩
    case rests =>
      obtain rfl : true = rest := ((allAtRest_iff d).2 hall).symm.trans hrest
      exact ⟨rfl, rfl, rfl, rfl⟩
    case moves =>
      obtain rfl : false = rest := (allAtRest_false (d := d) hmoving).symm.trans hrest
      exact ⟨rfl, rfl, rfl, rfl⟩
    case guard => simp only [ArrayState.haltContext_of_other hother, Option.isSome_none, Bool.false_eq_true, if_false]
    · exact (htower k).trans (if_pos ho)
    · exact (htower k).trans (by rw [if_neg ho, if_pos hzero])
    · have hramp : ¬ (s.dsy.towers[k].amp = 0 ∨ s.dsy.localPace = true) := not_or.2 ⟨hamp, by rw [hpace]; exact Bool.noConfusion⟩
      exact (htower k).trans (by rw [if_neg ho, if_neg hramp]; rfl)

end Sys2Proof.Machine
end

section
/-! SUPPORT. RETREAT: its checks, and the start of the transition back to the old source. -/
namespace Sys2Proof.Machine

/-! ## The slots of a running transition (R79) and the passage through RAMP_DOWN (R68) -/

theorem Runs.slots {c : TxContext} {a : ArrayState} (h : Runs c a) : a.slots = c.target :: c.source.toList := by
  rcases h with ⟨d, hd, hsame, _⟩ | ⟨x, rfl, hhalts⟩
  · have hslots : a.slots = d.target :: d.source.toList := by cases a <;> cases hd <;> rfl
    rw [hslots, hsame.target, hsame.source]
  · rw [ArrayState.slots, hhalts.target, hhalts.source]

/-- The orders of RAMP_DOWN leave a tower at rest at rest: it is in REST, or stands at amplitude zero (R25, R27). -/
theorem rampDownAll_atRest {d : Dsy} {t : TowerIx} (h : d.atRest t = true) (len : Nat) (b : TowerSet) :
    (d.rampDownAll len b).atRest t = true := by
  obtain ⟨hamp, hramp⟩ := (Dsy.atRest_iff ..).1 h
  rw [Dsy.atRest_iff, rampDownAll_tower]
  split
  · exact ⟨hamp, hramp⟩
  · rw [orderZero_tower, if_pos (.inl hamp)]
    exact ⟨hamp, fun _ => TowerOrder.noConfusion⟩

/-- With every tower at rest RAMP_DOWN is passed through at once (R68). -/
theorem enterRampDown_goes {s : State} (h : ∀ t : TowerIx, s.dsy.atRest t = true) (c : TxContext) :
    Goes c s (enterRampDown c s) := by
  rcases enterRampDown_cases s c with ⟨_, hrest⟩ | ⟨hgoes, _⟩
  · rw [← Bool.not_eq_true, restIn_iff] at hrest
    exact absurd (fun t _ => rampDownAll_atRest (h t) ..) hrest
  · exact hgoes

/-! ## RETREAT (R92) -/

section
variable {m : Mgmt} {s : State} {h : HaltContext}

theorem exec_retreat (hs : Serves .retreat m s) : exec .retreat s = .next (finishCommand m (retreatBody m s)) :=
  congrArg Host.Outcome.next (serve_served hs retreatBody)

theorem retreatBody_other (ha : ∀ x, s.txe.array ≠ .halted x) : retreatBody m s = (s, answer .wrongState []) := by
  simp only [retreatBody, ArrayState.haltContext_of_other ha]

theorem retreatBody_open (ha : s.txe.array = .halted h) (hopen : s.dsy.ilkClosed = false) :
    retreatBody m s = (s, answer .interlock []) := by
  simp only [retreatBody, ha, ArrayState.haltContext, hopen, if_true]

theorem retreatBody_sourceless (ha : s.txe.array = .halted h) (hclosed : s.dsy.ilkClosed = true) (hsource : h.source = none) :
    retreatBody m s = (s, answer .wrongState []) := by
  simp only [retreatBody, ha, ArrayState.haltContext, hclosed, Bool.true_eq_false, if_false, hsource]

theorem retreatBody_source {k : Slot} (ha : s.txe.array = .halted h) (hclosed : s.dsy.ilkClosed = true)
    (hsource : h.source = some k) : retreatBody m s
      = if s.dsy.allAtRest = false then (s, answer .busy []) else (retreatTo k s, answer .started [s.txe.seq]) := by
  simp only [retreatBody, ha, ArrayState.haltContext, hclosed, Bool.true_eq_false, if_false, hsource]

end

/-- The history once RETREAT has abandoned the halted record and opened its own (R92). -/
def retreatHistory (k : Slot) (s : State) : List HistRecord :=
  recordAtStart (plainContext s .retreat k) s.txe.now s :: (closeNewest .abandoned s.txe.now s.txe.history).take 7

/-- The state in which RETREAT enters RAMP_DOWN toward the old source (R92). -/
def retreatStarted (k : Slot) (s : State) : State :=
  ((s.setTxe { s.txe with armed := none, seq := s.txe.seq + 1, history := retreatHistory k s }).setCtu
    { s.ctu with guard := none }).setCmu (s.cmu.enterAll (withdrawnNotice 1 s))

theorem retreatTo_eq (k : Slot) (s : State) : retreatTo k s = tellStarted .retreat
    (raiseStarted (plainContext s .retreat k) s.txe.seq (enterRampDown (plainContext s .retreat k) (retreatStarted k s))) := by
  unfold retreatTo
  rw [withdraw_eq]
  rfl

/-- What RETREAT keeps of the engine: with every tower at rest its transition has left RAMP_DOWN. -/
theorem retreatTo_goes {s : State} (hrest : ∀ t : TowerIx, s.dsy.atRest t = true) (k : Slot) :
    Goes (plainContext s .retreat k) (retreatStarted k s) (retreatTo k s) := by
  rw [retreatTo_eq]
  exact (enterRampDown_goes (s := retreatStarted k s) hrest _).before rfl

/-- Settles O27: the checks are those of `retreatBody`; the start is `retreatTo_eq`, and what it leads to `retreatTo_goes`. -/
theorem retreatGoesBackToTheSource : Obligations.RetreatGoesBackToTheSource := by
  refine fun m s hs => ⟨fun ha => ?_, fun h ha => ⟨fun hopen => ?_, fun hclosed => ⟨fun hsource => ?_, fun k hsource =>
    ⟨fun hmoving => ?_, fun hrest => ⟨retreatTo k s, ?_, ?taken⟩⟩⟩⟩⟩
  case taken =>
    have hgoes := retreatTo_goes hrest k
    have hruns := hgoes.runs
    have harmed := hgoes.armed rfl
    obtain ⟨halts, hhistory⟩ := hgoes.history _ _ rfl rfl rfl
    refine ⟨harmed, hgoes.seq, hgoes.frame, ⟨_, hhistory, rfl, rfl, rfl, rfl, rfl, rfl, rfl, rfl, rfl, rfl⟩,
      ⟨recordAtStart (plainContext s .retreat k) s.txe.now s, plainContext s .retreat k, rfl, rfl, rfl, rfl, rfl, rfl, rfl,
        rfl, rfl, rfl, rfl, rfl, rfl, rfl, rfl, rfl, rfl, rfl, rfl, formContext_sets .., retreatTo_eq k s⟩, ?_, fun j => ?_⟩
    · rcases hruns with ⟨c, hc, hsame, hpast⟩ | ⟨x, hx, hhalts⟩
      · exact .inl ⟨c, hc, hsame.cause, hsame.source, hsame.target, hsame.mode, hsame.joint, hsame.down, hsame.up,
          hsame.blend, hpast c⟩
      · exact .inr ⟨x, hx, hhalts.cause, hhalts.source, hhalts.target, hhalts.mode, hhalts.joint, hhalts.up⟩
    · rw [inUse_iff, hruns.slots, harmed]
      simp [plainContext, formContext]
  · rw [exec_retreat hs, retreatBody_other ha]; rfl
  · rw [exec_retreat hs, retreatBody_open ha hopen]; rfl
  · rw [exec_retreat hs, retreatBody_sourceless ha hclosed hsource]; rfl
  · rw [exec_retreat hs, retreatBody_source ha hclosed hsource, if_pos (allAtRest_false hmoving)]; rfl
  · rw [exec_retreat hs, retreatBody_source ha hclosed hsource, if_neg (by rw [(allAtRest_iff _).2 hrest]; decide)]; rfl

end Sys2Proof.Machine
end

section
/-! SUPPORT. CONTINUE: its checks, the sequence numbers that a restart leaves, and SWITCHING entered with every tower at rest. -/
namespace Sys2Proof.Machine

/-! ## The sequence numbers of the history (R80, R85) -/

/-- The sequence numbers of the history records, newest first. -/
def State.recordSeqs (s : State) : List (BitVec 16) := s.txe.history.map (·.seq)

theorem recordSeqs_congr {s t : State} (h : t.txe.history = s.txe.history) : t.recordSeqs = s.recordSeqs := by
  rw [State.recordSeqs, h]
  rfl

section
variable (s : State)

/-- A halt counts itself in the newest record and changes no sequence number (R85). -/
theorem halt_recordSeqs (r : HaltReason) (u : HaltSubject) : (halt r u s).recordSeqs = s.recordSeqs := by
  cases hv : haltView s with
  | none => simp only [halt, hv]
  | some v =>
    rw [State.recordSeqs, halt_history hv, State.recordSeqs]
    cases s.txe.history <;> rfl

theorem takeDrift_recordSeqs (k : ContactorIx) : (takeDrift k s).recordSeqs = s.recordSeqs := by
  unfold takeDrift
  split
  · exact halt_recordSeqs ..
  · rfl

theorem takeDrifts_recordSeqs (l : List ContactorIx) :
    (l.foldl (fun s k => takeDrift k s) s).recordSeqs = s.recordSeqs := by
  induction l generalizing s with
  | nil => rfl
  | cons k l ih => exact (ih _).trans (takeDrift_recordSeqs s k)

theorem afterSettle_recordSeqs (c : TxContext) : (afterSettle c s).recordSeqs = s.recordSeqs := by
  unfold afterSettle
  split
  · rfl
  · unfold startRampUp
    split
    · exact halt_recordSeqs ..
    · rfl

theorem enterSettle_recordSeqs (c : TxContext) : (enterSettle c s).recordSeqs = s.recordSeqs := by
  unfold enterSettle
  split
  · exact afterSettle_recordSeqs ..
  · rfl

theorem leaveSwitching_recordSeqs (c : TxContext) : (leaveSwitching c s).recordSeqs = s.recordSeqs := by
  refine (takeDrifts_recordSeqs ..).trans ?_
  split
  · exact enterSettle_recordSeqs ..
  · exact afterSettle_recordSeqs ..

theorem judgeSwitching_recordSeqs : (judgeSwitching s).recordSeqs = s.recordSeqs := by
  unfold judgeSwitching
  split
  · split
    · exact leaveSwitching_recordSeqs ..
    · rfl
  all_goals rfl

theorem enterSwitching_recordSeqs (c : TxContext) : (enterSwitching c s).recordSeqs = s.recordSeqs := by
  obtain ⟨htxe, _⟩ := giveMoves_spec s (recRequirements (s.recordOf c.target)) { c with awaited := 0, moved := false }
  have hmoved := recordSeqs_congr (congrArg Txe.history htxe)
  unfold enterSwitching
  dsimp only
  split
  · exact (halt_recordSeqs ..).trans hmoved
  · exact (judgeSwitching_recordSeqs _).trans hmoved

end

/-! ## The moves of SWITCHING with every tower at rest (R70, R71) -/

section
variable {s : State} (hrest : ∀ t : TowerIx, s.dsy.atRest t = true)
include hrest

/-- A contactor that neither stands nor reads at the position travels to it once requested (R43). -/
theorem moveRequest_travels {k : ContactorIx} {p : Position} {e : Contactor} (he : s.ctu.units[k].entry = some e)
    (hstands : e.state.standsAt p = false) (hreads : s.ctu.units[k].reading.agrees p = false) :
    ∃ x, (moveRequest k p s).1.ctu.units[k].entry = some x ∧ x.state.travelsTo p = true := by
  cases htravels : e.state.travelsTo p with
  | true => exact ⟨e, by rw [moveRequest_travelling he htravels]; exact he, htravels⟩
  | false =>
    have hassoc : s.dsy.restIn e.assoc.towers = true := (restIn_iff ..).2 fun t _ => hrest t
    refine ⟨{ e with commanded := p, state := travelFrom p }, ?_, by cases p <;> rfl⟩
    rw [moveRequest_moving he hstands htravels, hassoc, hreads, if_neg Bool.noConfusion, if_neg Bool.noConfusion,
      setContactor_get, if_pos rfl]

/-- With every tower at rest no move request is answered INTERLOCK, so the moves go on with the next of the list. -/
theorem giveMoves_cons (k : ContactorIx) (p : Position) (rs : List (ContactorIx × Position)) (c : TxContext) :
    ∃ d, giveMoves ((k, p) :: rs) c s = giveMoves rs d (moveRequest k p s).1 := by
  cases he : s.ctu.units[k].entry with
  | none => exact ⟨c, by rw [giveMoves_undefined rs c he, moveRequest_undefined he]⟩
  | some e =>
    have hassoc : s.dsy.restIn e.assoc.towers = true := (restIn_iff ..).2 fun t _ => hrest t
    rw [giveMoves_defined rs c he]
    cases hstands : e.state.standsAt p with
    | true => exact ⟨c, by rw [if_pos rfl, moveRequest_standing he hstands]⟩
    | false =>
      rw [if_neg Bool.noConfusion]
      cases htravels : e.state.travelsTo p with
      | true => exact ⟨c.await k, by rw [if_pos rfl, moveRequest_travelling he htravels]⟩
      | false =>
        rw [if_neg Bool.noConfusion, moveRequest_moving he hstands htravels, hassoc, if_neg Bool.noConfusion]
        cases s.ctu.units[k].reading.agrees p with
        | true => exact ⟨_, rfl⟩
        | false => exact ⟨_, rfl⟩

theorem giveMoves_unblocked (rs : List (ContactorIx × Position)) (c : TxContext) : (giveMoves rs c s).2.2 = none := by
  induction rs generalizing c s with
  | nil => rfl
  | cons r rs ih =>
    obtain ⟨d, hd⟩ := giveMoves_cons hrest r.1 r.2 rs c
    rw [hd]
    exact ih (by rwa [moveRequest_dsy]) d

/-- The moves leave a contactor that their list does not name alone. -/
theorem giveMoves_other {k : ContactorIx} {rs : List (ContactorIx × Position)} (hk : k ∉ rs.map (·.1)) (c : TxContext) :
    (giveMoves rs c s).2.1.ctu.units[k] = s.ctu.units[k] := by
  induction rs generalizing c s with
  | nil => rfl
  | cons r rs ih =>
    obtain ⟨hne, hk⟩ := not_or.1 fun h => hk (List.mem_cons.2 h)
    obtain ⟨d, hd⟩ := giveMoves_cons hrest r.1 r.2 rs c
    rw [hd, ih (by rwa [moveRequest_dsy]) hk, moveRequest_other hne]

/-- After the moves of a list that names each contactor once, one that stood and read elsewhere travels to its position. -/
theorem giveMoves_travels {rs : List (ContactorIx × Position)} (hnodup : (rs.map (·.1)).Nodup)
    {r : ContactorIx × Position} (hr : r ∈ rs) {e : Contactor} (he : s.ctu.units[r.1].entry = some e)
    (hstands : e.state.standsAt r.2 = false) (hreads : s.ctu.units[r.1].reading.agrees r.2 = false) (c : TxContext) :
    ∃ x, (giveMoves rs c s).2.1.ctu.units[r.1].entry = some x ∧ x.state.travelsTo r.2 = true := by
  induction rs generalizing c s with
  | nil => cases hr
  | cons q rs ih =>
    obtain ⟨hq, hnodup⟩ := List.nodup_cons.1 hnodup
    obtain ⟨d, hd⟩ := giveMoves_cons hrest q.1 q.2 rs c
    have hrest' : ∀ t : TowerIx, (moveRequest q.1 q.2 s).1.dsy.atRest t = true := by rwa [moveRequest_dsy]
    rw [hd]
    rcases List.mem_cons.1 hr with rfl | hr
    · rw [giveMoves_other hrest' hq]
      exact moveRequest_travels hrest he hstands hreads
    · have hkept := moveRequest_other (fun h => hq (List.mem_map.2 ⟨r, hr, h⟩)) q.2 s
      exact ih hrest' hnodup hr (by rwa [hkept]) (by rwa [hkept]) d

/-- While a contactor of the list travels to its position SWITCHING is not left (R71). -/
theorem enterSwitching_waits {c : TxContext} (hnodup : ((recRequirements (s.recordOf c.target)).map (·.1)).Nodup)
    {r : ContactorIx × Position} (hr : r ∈ recRequirements (s.recordOf c.target)) {e : Contactor}
    (he : s.ctu.units[r.1].entry = some e) (hstands : e.state.standsAt r.2 = false)
    (hreads : s.ctu.units[r.1].reading.agrees r.2 = false) : ∃ d, (enterSwitching c s).txe.array = .switching d
      ∧ ∃ x, (enterSwitching c s).ctu.units[r.1].entry = some x ∧ x.state.travelsTo r.2 = true := by
  have hunblocked := giveMoves_unblocked hrest (recRequirements (s.recordOf c.target))
    { c with awaited := 0, moved := false }
  have htravels := giveMoves_travels hrest hnodup hr he hstands hreads { c with awaited := 0, moved := false }
  obtain ⟨_, _, _, _, hsame⟩ := giveMoves_spec s (recRequirements (s.recordOf c.target))
    { c with awaited := 0, moved := false }
  have hpst := (giveMoves_keeps s (recRequirements (s.recordOf c.target)) { c with awaited := 0, moved := false }).pst
  generalize hg : giveMoves (recRequirements (s.recordOf c.target)) { c with awaited := 0, moved := false } s = g
    at hunblocked htravels hsame hpst
  obtain ⟨d, t, b⟩ := g
  obtain rfl : b = none := hunblocked
  obtain ⟨x, hx, hto⟩ := htravels
  have hwaits : switchingDone d (t.setArray (.switching d)) = false := by
    have hrecord : (t.setArray (.switching d)).recordOf d.target = s.recordOf c.target := by
      rw [hsame.target]
      exact congrArg (Pst.slotWord · c.target) hpst
    rw [switchingDone, hrecord, Bool.and_eq_false_iff]
    refine .inl (List.all_eq_false.2 ⟨r, hr, ?_⟩)
    rw [Ctu.stateOf, State.setArray_ctu, hx]
    simp [ContactorState.standsAt_of_travelsTo hto]
  have hstays : judgeSwitching (t.setArray (.switching d)) = t.setArray (.switching d) :=
    if_neg (by rw [hwaits]; exact Bool.noConfusion)
  rw [enterSwitching_all hg, hstays]
  exact ⟨d, rfl, x, hx, hto⟩

end

/-! ## CONTINUE (R90, R91) -/

section
variable {m : Mgmt} {s : State} {h : HaltContext}

theorem exec_continueTx (hs : Serves .continueTx m s) :
    exec .continueTx s = .next (finishCommand m (continueBody m s)) :=
  congrArg Host.Outcome.next (serve_served hs continueBody)

theorem continueBody_other (ha : ∀ x, s.txe.array ≠ .halted x) : continueBody m s = (s, answer .wrongState []) := by
  simp only [continueBody, ArrayState.haltContext_of_other ha]

/-- The checks of R90 in HALTED. -/
theorem continueBody_halted (ha : s.txe.array = .halted h) : continueBody m s
    = if s.dsy.ilkClosed = false then (s, answer .interlock [])
      else if s.dsy.allAtRest = false then (s, answer .busy [])
      else (continueHalted h s, answer .started [h.seq]) := by
  simp only [continueBody, ha, ArrayState.haltContext]

end

/-- The state in which CONTINUE enters SWITCHING: nothing armed, with ARMED_WITHDRAWN (R91). -/
def continueStarted (s : State) : State :=
  (s.setTxe { s.txe with armed := none }).setCmu (s.cmu.enterAll (withdrawnNotice 1 s))

theorem continueHalted_eq (h : HaltContext) (s : State) : continueHalted h s
    = (enterSwitching (continueContext h s) (continueStarted s)).raise .txContinued (subjectOf h.target.val)
        [h.seq, word s.txe.newestHalts, word h.reason.code] := by
  unfold continueHalted
  rw [withdraw_eq]
  rfl

theorem continueHalted_goes (h : HaltContext) (s : State) :
    Goes (continueContext h s) (continueStarted s) (continueHalted h s) := by
  rw [continueHalted_eq]
  exact (enterSwitching_goes _ (.refl _)).before rfl

theorem Txe.newestHalts_of_head {x : Txe} {r : HistRecord} (h : x.history.head? = some r) : x.newestHalts = r.halts := by
  rw [Txe.newestHalts, h]
  rfl

/-- Settles O26: the checks are `continueBody_halted`; the restart is `continueHalted_eq`, what it leads to
`continueHalted_goes`, and the contactor it waits for `enterSwitching_waits`. -/
theorem continueRestartsFromSwitching : Obligations.ContinueRestartsFromSwitching := by
  refine fun m s hs => ⟨fun ha => ?_, fun h ha => ⟨fun hopen => ?_, fun hclosed => ⟨fun hmoving => ?_, fun hrest =>
    ⟨continueHalted h s, ?_, ?taken⟩⟩⟩⟩
  case taken =>
    have hgoes := continueHalted_goes h s
    refine ⟨hgoes.armed rfl, hgoes.seq, hgoes.frame, ?_, ⟨continueContext h s, rfl, rfl, rfl, rfl, rfl, rfl, rfl,
      formContext_sets .., continueHalted_eq h s⟩, fun r => Txe.newestHalts_of_head, ?_,
      fun hnodup r hr e he hstands hreads => ?_⟩
    · rw [continueHalted_eq]
      exact enterSwitching_recordSeqs (continueStarted s) (continueContext h s)
    · rcases hgoes.runs with ⟨c, hc, hsame, _⟩ | ⟨x, hx, hhalts⟩
      · exact .inl ⟨c, hc, hsame.cause, hsame.source, hsame.target, hsame.mode, hsame.joint, hsame.up, hsame.blend⟩
      · exact .inr ⟨x, hx, hhalts.cause, hhalts.source, hhalts.target, hhalts.mode, hhalts.joint, hhalts.up⟩
    · rw [continueHalted_eq]
      exact enterSwitching_waits (s := continueStarted s) hrest (c := continueContext h s) hnodup hr he hstands hreads
  · rw [exec_continueTx hs, continueBody_other ha]; rfl
  · rw [exec_continueTx hs, continueBody_halted ha, if_pos hopen]; rfl
  · rw [exec_continueTx hs, continueBody_halted ha, if_neg (by rw [hclosed]; decide), if_pos (allAtRest_false hmoving)]; rfl
  · rw [exec_continueTx hs, continueBody_halted ha, if_neg (by rw [hclosed]; decide),
      if_neg (by rw [(allAtRest_iff _).2 hrest]; decide)]; rfl

end Sys2Proof.Machine
end

section
/-! SUPPORT. The laws of MON and SCU as predicates on their blocks, and which updates of MON keep its law. -/
namespace Sys2Proof.Machine

/-! ## The law of MON (R107, R108) -/

/-- An out count stands in OUT and FAULT only (R107). -/
def MonTower.Lawful (x : MonTower) : Prop :=
  x.status = .notInPattern ∨ x.status = .held ∨ x.status = .inTol → x.count = 0

/-- MON's law where the active pattern is p (`monitorLaw_iff`). -/
structure Mon.Lawful (m : Mon) (p : Option Slot) : Prop where
  active : m.active = p
  idle   : p = none → m.holdOff = none ∧ ∀ t : TowerIx, m.towers[t].status = .held
  towers : ∀ t : TowerIx, m.towers[t].Lawful

theorem monitorLaw_iff (s : State) : MonitorLaw s ↔ s.mon.Lawful s.txe.array.activeSlot := by
  constructor
  · rintro ⟨hactive, hidle, htowers⟩
    exact ⟨hactive, fun hp => hidle (hactive.trans hp), htowers⟩
  · rintro ⟨hactive, hidle, htowers⟩
    exact ⟨hactive, fun hn => hidle (hactive.symm.trans hn), htowers⟩

theorem MonTower.lawful_of_count {x : MonTower} (h : x.count = 0) : x.Lawful := fun _ => h

namespace Mon.Lawful

variable {m n : Mon} {p : Option Slot}

/-- The law speaks of the active pattern, the hold-off and the towers alone. -/
theorem congr (h : m.Lawful p) (hactive : n.active = m.active) (hhold : n.holdOff = m.holdOff)
    (htowers : n.towers = m.towers) : n.Lawful p :=
  ⟨hactive.trans h.active, by rw [hhold, htowers]; exact h.idle, by rw [htowers]; exact h.towers⟩

/-- A hold-off that ends, or that counts on only where one runs. -/
theorem setHoldOff (h : m.Lawful p) {x : Option Nat} (hx : m.holdOff = none → x = none) :
    ({ m with holdOff := x } : Mon).Lawful p :=
  ⟨h.active, fun hp => ⟨hx (h.idle hp).1, (h.idle hp).2⟩, h.towers⟩

/-- Every tower changed, HELD staying HELD. -/
theorem mapTowers (h : m.Lawful p) {f : MonTower → MonTower} (hheld : ∀ x, x.status = .held → (f x).status = .held)
    (hf : ∀ x : MonTower, x.Lawful → (f x).Lawful) : ({ m with towers := m.towers.map f } : Mon).Lawful p := by
  refine ⟨h.active, fun hp => ⟨(h.idle hp).1, fun t => ?_⟩, fun t => ?_⟩
  · rw [map_get]; exact hheld _ ((h.idle hp).2 t)
  · rw [map_get]; exact hf _ (h.towers t)

theorem clearLimits (h : m.Lawful p) : m.clearLimits.Lawful p := h.mapTowers (fun _ hx => hx) fun _ hx => hx

/-- ACK_FAULT clears every count, and only FAULT and OUT change (R116). -/
theorem ackFault (h : m.Lawful p) : m.ackFault.Lawful p := by
  have hmap := h.mapTowers
    (f := fun x => { x with count := 0, status := if x.status = .fault ∨ x.status = .out then .out else x.status })
    (fun x hx => by simp [hx]) fun x _ => MonTower.lawful_of_count rfl
  exact hmap.congr rfl rfl rfl

end Mon.Lawful

/-- Out of ACTIVE every tower is HELD with no count (R108). -/
theorem Mon.leaveActive_lawful (m : Mon) : m.leaveActive.Lawful none := by
  refine ⟨rfl, fun _ => ⟨rfl, fun t => ?_⟩, fun t => MonTower.lawful_of_count ?_⟩ <;> rw [Mon.leaveActive_tower]

theorem Mon.leaveActive_leaveActive (m : Mon) : m.leaveActive.leaveActive = m.leaveActive := by
  simp only [Mon.leaveActive, Vector.map_map, Function.comp_def]

theorem Mon.started_lawful (m : Mon) (c : Cause) : (m.started c).Lawful none := m.leaveActive_lawful.congr rfl rfl rfl

theorem Mon.restart_lawful (m : Mon) : m.restart.Lawful none := m.leaveActive_lawful.clearLimits.congr rfl rfl rfl

/-- In ACTIVE every count starts from zero (R108). -/
theorem Mon.enterActive_lawful (m : Mon) (p : Slot) (x : TowerSet) (n : Nat) : (m.enterActive p x n).Lawful (some p) := by
  refine ⟨rfl, (nomatch ·), fun t => MonTower.lawful_of_count ?_⟩
  rw [Mon.enterActive, ofFn_get]

theorem Mon.reset_lawful : Mon.reset.Lawful none :=
  (monitorLaw_iff State.reset).1 (by
    obtain ⟨_, _, _, _, _, _, _, _, _, hmonitor, _⟩ := resetKeepsEveryLaw
    exact hmonitor)

/-! ## An evaluation (R110 to R114, R119) -/

/-- What an evaluation leaves: MON's active pattern, each tower's law, SCU and the array state. -/
structure Evaluated (s t : State) : Prop where
  active : t.mon.active = s.mon.active
  towers : (∀ k : TowerIx, s.mon.towers[k].Lawful) → ∀ k : TowerIx, t.mon.towers[k].Lawful
  scu    : t.scu = s.scu
  array  : t.txe.array = s.txe.array

namespace Evaluated

variable {s t u : State}

theorem refl (s : State) : Evaluated s s := ⟨rfl, id, rfl, rfl⟩

theorem trans (h : Evaluated s t) (k : Evaluated t u) : Evaluated s u :=
  ⟨k.active.trans h.active, k.towers ∘ h.towers, k.scu.trans h.scu, k.array.trans h.array⟩

theorem ite {p : Prop} [Decidable p] (h : Evaluated s t) (k : Evaluated s u) : Evaluated s (if p then t else u) := by
  split
  · exact h
  · exact k

/-- An operation that leaves MON's pattern and towers, SCU and the array state alone. -/
theorem keeps (h : Evaluated s t) (hactive : u.mon.active = t.mon.active) (htowers : u.mon.towers = t.mon.towers)
    (hscu : u.scu = t.scu) (harray : u.txe.array = t.txe.array) : Evaluated s u :=
  h.trans ⟨hactive, by rw [htowers]; exact id, hscu, harray⟩

theorem raise (h : Evaluated s t) (k : NoticeKind) (b : Option (BitVec 8)) (d : List Word) : Evaluated s (t.raise k b d) :=
  h.keeps rfl rfl rfl rfl

theorem foldl {α : Type} {f : State → α → State} (hf : ∀ s a, Evaluated s (f s a)) (l : List α) (s : State) :
    Evaluated s (l.foldl f s) := by
  induction l generalizing s with
  | nil => exact refl s
  | cons a l ih => exact (hf s a).trans (ih _)

/-- One tower given a lawful value. -/
theorem setTower (k : TowerIx) {x : MonTower} (hx : s.mon.towers[k].Lawful → x.Lawful) :
    Evaluated s (s.setMon (s.mon.setTower k x)) := by
  refine ⟨rfl, fun h j => ?_, rfl, rfl⟩
  show (setAt s.mon.towers k x)[j].Lawful
  rw [setAt_get]
  split
  · exact hx (h k)
  · exact h j

theorem setStatus (k : TowerIx) {x : Tolerance} {n : Nat} (hx : n = 0 ∨ x = .out ∨ x = .fault) :
    Evaluated s (setStatus k x n s) := by
  refine setTower k fun _ => ?_
  rcases hx with rfl | rfl | rfl
  · exact MonTower.lawful_of_count rfl
  · rintro (h | h | h) <;> cases h
  · rintro (h | h | h) <;> cases h

/-- TXE's answer to a request changes the Armed Request alone (R62). -/
theorem request (k : Slot) (m : ReqMode) (f : Option FrameNum) (c : Cause) : Evaluated s (request k m f c s).1 := by
  unfold Machine.request
  repeat' split
  all_goals exact (refl s).keeps rfl rfl rfl rfl

theorem takeFaultAction (w : Nat → Word) : Evaluated s (takeFaultAction w s).1 := by
  unfold Machine.takeFaultAction
  split
  · exact refl s
  · split
    · exact refl s
    · exact (request ..).keeps rfl rfl rfl rfl

theorem judgeTower (w : Nat → Word) (k : TowerIx) (r : Nat) (m : Int) (q : BitVec 8) :
    Evaluated s (judgeTower w k r m q s) := by
  have tolerated : Evaluated s (Machine.setStatus k .inTol 0 s) := setStatus k (.inl rfl)
  have fault : Evaluated s (declareFault w k r m q s) :=
    ((setStatus k (.inr (.inr rfl))).trans (takeFaultAction w)).raise ..
  exact ite (ite (tolerated.raise ..) tolerated) (ite (refl s) (ite fault (setStatus k (.inr (.inl rfl)))))

theorem noticeLimit (w : Nat → Word) (p : Slot) (k : TowerIx) (a b : Int) : Evaluated s (noticeLimit w p k a b s) := by
  unfold Machine.noticeLimit
  split
  · exact refl s
  · exact ite (refl s) ((setTower k (x := { s.mon.towers[k] with limitNoticed := true }) fun h => h).raise ..)

theorem trimTower (w : Nat → Word) (p : Slot) (k : TowerIx) (r : Nat) (m : Int) : Evaluated s (trimTower w p k r m s) :=
  ite (refl s) ((noticeLimit ..).keeps rfl rfl rfl rfl)

theorem evaluateTower (w : Nat → Word) (p : Slot) (rec : MonRecord) (k : TowerIx) : Evaluated s (evaluateTower w p rec s k) :=
  ite ((judgeTower ..).trans (trimTower ..)) (refl s)

end Evaluated

/-- Only a pattern of ACTIVE is evaluated against (R110). -/
theorem evaluate_idle {s : State} (h : s.mon.active = none) (rec : MonRecord) : evaluate rec s = s := by
  simp only [evaluate, h]

theorem evaluate_evaluated (rec : MonRecord) (s : State) : Evaluated s (evaluate rec s) := by
  unfold evaluate
  split
  · exact .refl s
  · exact .ite (.foldl (fun _ k => .evaluateTower _ _ rec k) _ _) (.refl s)

/-! ## The law of SCU (R126, R133) -/

/-- The entry of the occurrence has not fired last on its date. -/
def Scu.Unfired (u : Scu) (o : Occurrence) : Prop := ∀ e ∈ u.table[o.entry], e.lastFired ≠ some o.date

/-- SCU's law (`scheduleLaw_iff`). -/
structure Scu.Lawful (u : Scu) : Prop where
  held     : u.held.isSome = true → u.hold = true
  deferred : u.hold = true → u.deferred = none
  unfired  : ∀ o, u.deferred = some o ∨ u.held = some o → u.Unfired o

theorem scheduleLaw_iff (s : State) : ScheduleLaw s ↔ s.scu.Lawful := by
  have hmem : ∀ o : Occurrence, o ∈ s.scu.deferred.toList ++ s.scu.held.toList
      ↔ s.scu.deferred = some o ∨ s.scu.held = some o := fun o => by simp
  constructor
  · rintro ⟨hheld, hdeferred, hunfired⟩
    exact ⟨hheld, hdeferred, fun o ho => hunfired o ((hmem o).2 ho)⟩
  · rintro ⟨hheld, hdeferred, hunfired⟩
    exact ⟨hheld, hdeferred, fun o ho => hunfired o ((hmem o).1 ho)⟩

namespace Scu.Lawful

variable {u v : Scu} {o : Occurrence}

/-- The law speaks of the entries, the hold flag and the table alone. -/
theorem congr (h : u.Lawful) (hheld : v.held = u.held) (hhold : v.hold = u.hold) (hdeferred : v.deferred = u.deferred)
    (htable : v.table = u.table) : v.Lawful := by
  obtain ⟨_, _, _, _, _, _⟩ := u
  obtain ⟨_, _, _, _, _, _⟩ := v
  cases hheld; cases hhold; cases hdeferred; cases htable
  exact ⟨h.held, h.deferred, h.unfired⟩

/-- With neither entry standing the law asks nothing. -/
theorem clear (hheld : u.held = none) (hdeferred : u.deferred = none) : u.Lawful :=
  ⟨fun h => by simp [hheld] at h, fun _ => hdeferred, fun o ho => by simp [hheld, hdeferred] at ho⟩

theorem unheld (h : u.Lawful) (hhold : u.hold = false) : u.held = none := by
  cases hx : u.held with
  | none => rfl
  | some o => exact absurd (h.held (by rw [hx]; rfl)) (by rw [hhold]; exact Bool.noConfusion)

/-- A deferred entry stands only with the hold flag clear. -/
theorem hold_of_deferred (h : u.Lawful) (ho : u.deferred = some o) : u.hold = false := by
  cases hx : u.hold with
  | false => rfl
  | true => exact absurd (h.deferred hx) (by rw [ho]; exact Option.some_ne_none o)

/-- The deferred entry is discarded. -/
theorem discard (h : u.Lawful) : ({ u with deferred := none } : Scu).Lawful :=
  ⟨h.held, fun _ => rfl, fun o ho => h.unfired o (.inr (ho.resolve_left (Option.some_ne_none o).symm))⟩

/-- The occurrence becomes the deferred entry, with the hold flag clear (R131). -/
theorem defer (h : u.Lawful) (hhold : u.hold = false) (ho : u.Unfired o) :
    ({ u with deferred := some o } : Scu).Lawful := by
  refine ⟨h.held, fun hx => ?_, ?_⟩
  · rw [show u.hold = true from hx] at hhold; cases hhold
  · rintro x (hx | hx)
    · cases hx; exact ho
    · exact h.unfired x (.inr hx)

/-- The occurrence becomes the held-due entry, with the hold flag set (R133). -/
theorem hold (hhold : u.hold = true) (hdeferred : u.deferred = none) (ho : u.Unfired o) :
    ({ u with held := some o } : Scu).Lawful := by
  refine ⟨fun _ => hhold, fun _ => hdeferred, ?_⟩
  rintro x (hx | hx)
  · rw [show u.deferred = some x from hx] at hdeferred; cases hdeferred
  · cases hx; exact ho

/-- An occurrence fires: its own deferred entry goes (log 38), and one of another occurrence is of another entry or date. -/
theorem fire (h : u.Lawful) (hhold : u.hold = false) (o : Occurrence) : (u.fire o).Lawful := by
  have hheld : ∀ x, (u.fire o).held ≠ some x := by simp [h.unheld hhold]
  refine ⟨h.held, fun hx => ?_, fun x hx e he hfired => ?_⟩
  · rw [show u.hold = true from hx] at hhold; cases hhold
  · have hx : (u.fire o).deferred = some x := hx.resolve_right (hheld x)
    rw [Scu.fire_deferred] at hx
    split_ifs at hx with hown
    rw [Scu.fire_table] at he
    split_ifs at he with hentry
    · obtain ⟨d, _, rfl⟩ := Option.map_eq_some_iff.1 he
      have hdate : o.date = x.date := Option.some.inj hfired
      exact hown (by rw [hx]; cases o; cases x; cases hentry; cases hdate; rfl)
    · exact h.unfired x (.inl hx) e he hfired

end Scu.Lawful

end Sys2Proof.Machine
end

section
/-! SUPPORT. What the operations of SCU leave of its law; the start, the phases and the end of a transition as MON and SCU see
them. -/
namespace Sys2Proof.Machine

/-! ## What becomes of an occurrence (R129 to R134) -/

section
variable {s : State} {o : Occurrence}

theorem defer_scu (o : Occurrence) (s : State) : (defer o s).scu = { s.scu with deferred := some o } := by
  unfold defer
  repeat' split
  all_goals rfl

/-- An occurrence that is settled fires, is deferred, or changes nothing of SCU. -/
theorem settleDue_scu_cases (o : Occurrence) (a : ReqAnswer) (s : State) : (settleDue o a s).scu = s.scu.fire o
    ∨ (settleDue o a s).scu = { s.scu with deferred := some o } ∨ (settleDue o a s).scu = s.scu := by
  unfold settleDue
  cases hd : (dueOf a).1 with
  | armed | alreadyActive => exact .inl rfl
  | deferred => exact .inr (.inl (defer_scu o s))
  | notValid | notPermitted | missed => exact .inr (.inr rfl)

theorem settleDue_lawful (h : s.scu.Lawful) (hhold : s.scu.hold = false) (ho : s.scu.Unfired o) (a : ReqAnswer) :
    (settleDue o a s).scu.Lawful := by
  rcases settleDue_scu_cases o a s with hs | hs | hs <;> rw [hs]
  · exact h.fire hhold o
  · exact h.defer hhold ho
  · exact h

@[simp] theorem request_scu (k : Slot) (m : ReqMode) (f : Option FrameNum) (c : Cause) (s : State) :
    (request k m f c s).1.scu = s.scu := (Evaluated.request k m f c).scu

theorem actOn_lawful (h : s.scu.Lawful) (hhold : s.scu.hold = false) (ho : s.scu.Unfired o) (f : Option FrameNum) :
    (actOn o f s).scu.Lawful := by
  unfold actOn
  split
  · exact h
  · apply settleDue_lawful <;> rw [request_scu] <;> assumption

theorem actOn_array (o : Occurrence) (f : Option FrameNum) (s : State) : (actOn o f s).txe.array = s.txe.array := by
  unfold actOn
  split
  · rfl
  · simp only [settleDue, raiseDue_txe, apply_ite State.txe, State.setScu_txe, defer_txe, ite_self]
    exact (Evaluated.request ..).array

/-- The deferred entry offered again stands with the hold flag clear (R132). -/
theorem offerDeferred_lawful (h : s.scu.Lawful) : (offerDeferred s).scu.Lawful := by
  unfold offerDeferred
  split
  · exact h
  next o ho =>
    refine actOn_lawful h.discard ?_ ?_ none
    · exact h.hold_of_deferred ho
    · exact h.unfired o (.inl ho)

theorem offerDeferred_array (s : State) : (offerDeferred s).txe.array = s.txe.array := by
  unfold offerDeferred
  split
  · rfl
  · rw [actOn_array]; rfl

theorem takeOccurrence_lawful (h : s.scu.Lawful) (ho : s.scu.Unfired o) : (takeOccurrence o s).scu.Lawful := by
  unfold takeOccurrence
  split
  next hhold =>
    have held : (holdDue o s).scu = { s.scu with held := some o } := by
      unfold holdDue
      split <;> rfl
    rw [held]
    exact .hold hhold (h.deferred hhold) ho
  next hhold => exact actOn_lawful h (by simpa using hhold) ho _

theorem fallDue_lawful {os : List Occurrence} (h : s.scu.Lawful) (hos : ∀ o ∈ os, s.scu.Unfired o) :
    (fallDue os s).scu.Lawful := by
  induction os generalizing s with
  | nil => exact h
  | cons o os ih =>
    cases os with
    | nil => exact takeOccurrence_lawful h (hos o (by simp))
    | cons p ps => exact ih (s := raiseDue o .missed .earlier none s) h fun x hx => hos x (List.mem_cons_of_mem _ hx)

theorem mem_insertByMinute {x y : Nat × EntryIx} {l : List (Nat × EntryIx)} : y ∈ insertByMinute x l ↔ y = x ∨ y ∈ l := by
  induction l with
  | nil => simp [insertByMinute]
  | cons z l ih =>
    rw [insertByMinute]
    split
    · simp only [List.mem_cons]
    · simp only [List.mem_cons, ih]; tauto

theorem mem_foldr_insertByMinute {y : Nat × EntryIx} {l : List (Nat × EntryIx)} : y ∈ l.foldr insertByMinute [] ↔ y ∈ l := by
  induction l with
  | nil => rfl
  | cons x l ih => rw [List.foldr_cons, mem_insertByMinute, ih, List.mem_cons]

/-- An entry has an occurrence only on a date that is not its last-fired date (R125). -/
theorem unfired_of_mem_occurrencesIn {u : Scu} {p : SpanPart} (ho : o ∈ occurrencesIn u p) : u.Unfired o := by
  unfold occurrencesIn at ho
  obtain ⟨x, hx, rfl⟩ := List.mem_map.1 ho
  obtain ⟨i, _, hi⟩ := List.mem_filterMap.1 (mem_foldr_insertByMinute.1 hx)
  split at hi
  next e he =>
    split_ifs at hi with hoccurs
    cases hi
    intro d hd
    cases Option.some.inj (he.symm.trans (Option.mem_def.1 hd))
    simp only [SchedEntry.occursIn, Bool.and_eq_true, bne_iff_ne] at hoccurs
    obtain ⟨⟨⟨_, hfired⟩, _⟩, _⟩ := hoccurs
    exact hfired
  next => cases hi

theorem unfired_of_mem_occurrences {u : Scu} {d0 d1 : Date} {t0 t1 : Nat} (ho : o ∈ occurrences u d0 t0 d1 t1) :
    u.Unfired o := by
  obtain ⟨p, _, hp⟩ := List.mem_flatMap.1 ho
  exact unfired_of_mem_occurrencesIn hp

theorem crossClock_lawful (h : s.scu.Lawful) (d0 : Date) (t0 n : Nat) (d1 : Date) (t1 : Nat) :
    (crossClock d0 t0 n d1 t1 s).scu.Lawful := by
  have hset : (s.scu.setClock d1 t1).Lawful := h.congr rfl rfl rfl rfl
  have due : ∀ u : State, u.scu = s.scu.setClock d1 t1 → (fallDue (occurrences s.scu d0 t0 d1 t1) u).scu.Lawful :=
    fun u hu => fallDue_lawful (hu ▸ hset) fun o ho => hu ▸ unfired_of_mem_occurrences ho
  unfold crossClock
  dsimp only
  split_ifs
  · exact hset
  · exact hset
  · exact due _ rfl
  · exact due _ rfl
  · exact hset

theorem takeTime_lawful (h : s.scu.Lawful) (b : TimeBody) : (takeTime b s).scu.Lawful := by
  have hset : (s.scu.setClock b.date b.second).Lawful := h.congr rfl rfl rfl rfl
  unfold takeTime
  split
  · split
    · exact hset
    · exact crossClock_lawful h ..
    · exact crossClock_lawful h ..
  · exact h

theorem holdOn_lawful (h : s.scu.Lawful) : (holdOn s).scu.Lawful := by
  unfold holdOn
  split
  · exact h
  · split
    next hnone => exact ⟨fun _ => rfl, fun _ => hnone, h.unfired⟩
    next o ho => exact .hold (u := { s.scu with hold := true, deferred := none }) rfl rfl (h.unfired o (.inl ho))

theorem holdOff_lawful (h : s.scu.Lawful) (b : Bool) : (holdOff b s).scu.Lawful := by
  unfold holdOff
  split
  next hhold =>
    have hdeferred := h.deferred hhold
    split
    next hheld => exact .clear hheld hdeferred
    next o ho =>
      have hclear : ({ s.scu with hold := false, held := none } : Scu).Lawful := .clear rfl hdeferred
      dsimp only
      split
      · exact actOn_lawful (s := s.setScu { s.scu with hold := false, held := none }) hclear rfl (h.unfired o (.inr ho)) none
      · exact hclear
  next => exact h

end

end Sys2Proof.Machine
end

section
/-! SUPPORT. A transition out of ACTIVE as MON and SCU see it: the phases and halts tell them at most that ACTIVE was left. -/
namespace Sys2Proof.Machine

/-! ## Transitions outside ACTIVE (R85, R99, R108, R132) -/

/-- TXE ends outside ACTIVE; MON is as it was or has left ACTIVE, SCU as it was or without its deferred entry. -/
structure Outside (s t : State) : Prop where
  array : t.txe.array.activeSlot = none
  mon   : t.mon = s.mon ∨ t.mon = s.mon.leaveActive
  scu   : t.scu = s.scu ∨ t.scu = { s.scu with deferred := none }

theorem activeSlot_of_context {a : ArrayState} {c : TxContext} (h : a.context = some c) : a.activeSlot = none := by
  cases a <;> first | rfl | cases h

/-- Outside ACTIVE a drift report is acted on in a phase alone (R75). -/
theorem context_of_takesDrift {a : ArrayState} (h : takesDrift a = true) (hs : a.activeSlot = none) :
    ∃ c, a.context = some c := by
  cases a with
  | settle c | readyUp c | rampUp c => exact ⟨c, rfl⟩
  | active => cases hs
  | _ => cases h

namespace Outside

variable {s t u : State}

/-- Nothing is told where the array state stays or becomes one outside ACTIVE. -/
theorem untold (harray : t.txe.array.activeSlot = none) (hmon : t.mon = s.mon) (hscu : t.scu = s.scu) : Outside s t :=
  ⟨harray, .inl hmon, .inl hscu⟩

theorem trans (h : Outside s t) (k : Outside t u) : Outside s u := by
  refine ⟨k.array, ?_, ?_⟩
  · rcases h.mon with h1 | h1 <;> rcases k.mon with k1 | k1 <;> rw [k1, h1] <;> simp [Mon.leaveActive_leaveActive]
  · rcases h.scu with h1 | h1 <;> rcases k.scu with k1 | k1 <;> rw [k1, h1] <;> simp

/-- An operation that starts from the MON and SCU of s. -/
theorem after (k : Outside t u) (hmon : t.mon = s.mon) (hscu : t.scu = s.scu) : Outside s u :=
  ⟨k.array, by rw [← hmon]; exact k.mon, by rw [← hscu]; exact k.scu⟩

theorem ite {p : Prop} [Decidable p] (h : Outside s t) (k : Outside s u) : Outside s (if p then t else u) := by
  split
  · exact h
  · exact k

/-- A state outside ACTIVE that an operation leaves as it is. -/
theorem stays (h : s.txe.array.activeSlot = none) : Outside s s := untold h rfl rfl

theorem halt {v : HaltView} (r : HaltReason) (x : HaltSubject) (hv : haltView s = some v) : Outside s (halt r x s) := by
  obtain ⟨_, harray⟩ := halt_array (r := r) (u := x) hv
  exact ⟨by rw [harray]; rfl, .inr (halt_mon hv), .inr (halt_scu hv)⟩

theorem haltPhase (r : HaltReason) (x : HaltSubject) {c : TxContext} (hc : s.txe.array.context = some c) :
    Outside s (Machine.halt r x s) := by
  obtain ⟨_, hv⟩ := haltView_phase hc
  exact halt r x hv

theorem takeDrift (h : s.txe.array.activeSlot = none) (k : ContactorIx) : Outside s (takeDrift k s) := by
  unfold Machine.takeDrift
  split
  next hd =>
    refine after (t := s.setDsy (s.dsy.forceZero (assocTowers s k))) ?_ rfl rfl
    obtain ⟨_, hc⟩ := context_of_takesDrift hd h
    exact haltPhase _ _ hc
  · exact stays h

theorem takeDrifts (h : Outside s t) (l : List ContactorIx) : Outside s (l.foldl (fun s k => Machine.takeDrift k s) t) := by
  induction l generalizing t with
  | nil => exact h
  | cons k l ih => exact ih (h.trans (takeDrift h.array k))

theorem startRampUp (c : TxContext) (s : State) : Outside s (startRampUp c s) := by
  unfold Machine.startRampUp
  split
  · exact (haltPhase (s := s.setArray (.rampUp c 0)) _ _ rfl).after rfl rfl
  · exact untold rfl rfl rfl

theorem enterReadyUp (c : TxContext) (n : Nat) (s : State) : Outside s (enterReadyUp c n s) := untold rfl rfl rfl

theorem afterSettle (c : TxContext) (s : State) : Outside s (afterSettle c s) := by
  unfold Machine.afterSettle
  split
  · exact enterReadyUp ..
  · exact startRampUp c s

theorem enterSettle (c : TxContext) (s : State) : Outside s (enterSettle c s) :=
  ite ((afterSettle c (s.setArray (.settle c 0))).after rfl rfl) (untold rfl rfl rfl)

theorem leaveSwitching (c : TxContext) (s : State) : Outside s (leaveSwitching c s) :=
  takeDrifts (s := s) (ite ((enterSettle c (setGuard (some c.target) s)).after rfl rfl)
    ((afterSettle c (setGuard (some c.target) s)).after rfl rfl)) _

theorem judgeSwitching (h : s.txe.array.activeSlot = none) : Outside s (judgeSwitching s) := by
  unfold Machine.judgeSwitching
  split
  · exact ite (leaveSwitching ..) (stays h)
  all_goals exact stays h

theorem enterSwitching (c : TxContext) (s : State) : Outside s (enterSwitching c s) := by
  obtain ⟨_, _, hmon, hscu, _⟩ :=
    giveMoves_spec s (recRequirements (s.recordOf c.target)) { c with awaited := 0, moved := false }
  unfold Machine.enterSwitching
  dsimp only
  generalize giveMoves (recRequirements (s.recordOf c.target)) { c with awaited := 0, moved := false } s = g at hmon hscu
  split
  · exact (haltPhase (s := g.2.1.setArray (.switching g.1)) _ _ rfl).after hmon hscu
  · exact (judgeSwitching (s := g.2.1.setArray (.switching g.1)) rfl).after hmon hscu

theorem enterRampDown (c : TxContext) (s : State) : Outside s (enterRampDown c s) :=
  ite ((enterSwitching c _).after rfl rfl) (untold rfl rfl rfl)

end Outside

/-! ## The laws of MON and SCU, kept -/

/-- What an operation keeps of MON and SCU: each one's law, if it held. -/
structure TellsKept (s t : State) : Prop where
  mon : s.mon.Lawful s.txe.array.activeSlot → t.mon.Lawful t.txe.array.activeSlot
  scu : s.scu.Lawful → t.scu.Lawful

namespace TellsKept

variable {o s t : State}

theorem refl (s : State) : TellsKept s s := ⟨id, id⟩

theorem trans (h : TellsKept o s) (k : TellsKept s t) : TellsKept o t := ⟨k.mon ∘ h.mon, k.scu ∘ h.scu⟩

theorem ite {p : Prop} [Decidable p] (h : TellsKept o s) (k : TellsKept o t) : TellsKept o (if p then s else t) := by
  split
  · exact h
  · exact k

theorem foldl {α : Type} {f : State → α → State} (hf : ∀ s a, TellsKept o s → TellsKept o (f s a)) (l : List α)
    (h : TellsKept o s) : TellsKept o (l.foldl f s) := by
  induction l generalizing s with
  | nil => exact h
  | cons a l ih => exact ih (hf s a h)

/-- An operation that leaves MON and SCU alone, and ACTIVE. -/
theorem keeps (h : TellsKept o s) (hmon : t.mon = s.mon) (hscu : t.scu = s.scu)
    (harray : t.txe.array.activeSlot = s.txe.array.activeSlot) : TellsKept o t :=
  h.trans ⟨by rw [hmon, harray]; exact id, by rw [hscu]; exact id⟩

theorem setRif (h : TellsKept o s) (b : Rif) : TellsKept o (s.setRif b) := h.keeps rfl rfl rfl
theorem setCmu (h : TellsKept o s) (b : Cmu) : TellsKept o (s.setCmu b) := h.keeps rfl rfl rfl
theorem setPst (h : TellsKept o s) (b : Pst) : TellsKept o (s.setPst b) := h.keeps rfl rfl rfl
theorem setLdu (h : TellsKept o s) (b : Ldu) : TellsKept o (s.setLdu b) := h.keeps rfl rfl rfl
theorem setDsy (h : TellsKept o s) (b : Dsy) : TellsKept o (s.setDsy b) := h.keeps rfl rfl rfl
theorem setCtu (h : TellsKept o s) (b : Ctu) : TellsKept o (s.setCtu b) := h.keeps rfl rfl rfl
theorem setGuard (h : TellsKept o s) (g : Option Slot) : TellsKept o (setGuard g s) := h.keeps rfl rfl rfl
theorem setClaim (h : TellsKept o s) (x : Target) (c : Option Claim) : TellsKept o (s.setClaim x c) := h.keeps rfl rfl rfl
theorem enter (h : TellsKept o s) (r : Record) : TellsKept o (s.enter r) := h.keeps rfl rfl rfl
theorem raise (h : TellsKept o s) (k : NoticeKind) (b : Option (BitVec 8)) (d : List Word) : TellsKept o (s.raise k b d) :=
  h.keeps rfl rfl rfl
theorem closeRecord (h : TellsKept o s) (x : HistOutcome) (f : FrameNum) : TellsKept o (closeRecord x f s) :=
  h.keeps rfl rfl rfl

/-- MON's law kept by a change of MON that leaves its pattern. -/
theorem setMon (h : TellsKept o s) {m : Mon} (hm : ∀ p, s.mon.Lawful p → m.Lawful p) : TellsKept o (s.setMon m) :=
  h.trans ⟨hm _, id⟩

theorem withdraw (h : TellsKept o s) (r : WithdrawReason) : TellsKept o (withdraw r s) :=
  h.keeps (withdraw_mon ..) (withdraw_scu ..) (by rw [withdraw_txe])

/-- MON is told that ACTIVE was left, and the deferred entry stays or is discarded. -/
theorem left (h : TellsKept o s) (harray : t.txe.array.activeSlot = none) (hmon : t.mon = s.mon.leaveActive)
    (hscu : t.scu = s.scu ∨ t.scu = { s.scu with deferred := none }) : TellsKept o t := by
  refine h.trans ⟨fun _ => ?_, fun hs => ?_⟩
  · rw [harray, hmon]; exact s.mon.leaveActive_lawful
  · rcases hscu with hscu | hscu <;> rw [hscu]
    · exact hs
    · exact hs.discard

/-- Outside ACTIVE nothing need be told. -/
theorem outside (h : TellsKept o s) (hs : s.txe.array.activeSlot = none) (k : Outside s t) : TellsKept o t := by
  rcases k.mon with hmon | hmon
  · refine h.trans ⟨fun hl => ?_, fun hl => ?_⟩
    · rw [hmon, k.array, ← hs]; exact hl
    · rcases k.scu with hscu | hscu <;> rw [hscu]
      · exact hl
      · exact hl.discard
  · exact h.left k.array hmon k.scu

/-! ### Transitions -/

theorem halt (h : TellsKept o s) (r : HaltReason) (x : HaltSubject) : TellsKept o (halt r x s) := by
  cases hv : haltView s with
  | none => unfold Machine.halt; rw [hv]; exact h
  | some v =>
    have hout := Outside.halt r x hv
    exact h.left hout.array (halt_mon hv) hout.scu

theorem takeDrift (h : TellsKept o s) (k : ContactorIx) : TellsKept o (takeDrift k s) := ite ((h.setDsy _).halt ..) h

/-- A start, from ACTIVE or not, tells MON that ACTIVE was left (R65, R108). -/
theorem launch (h : TellsKept o s) (c : TxContext) (f : FrameNum) : TellsKept o (launch c f s) := by
  have hout : Outside s (Machine.enterRampDown c
      (Machine.setGuard none (openRecord c.cause c.source c.target c.mode c.joint.isSome f s))) :=
    (Outside.enterRampDown c _).after rfl rfl
  unfold Machine.launch
  dsimp only
  generalize Machine.enterRampDown c
    (Machine.setGuard none (openRecord c.cause c.source c.target c.mode c.joint.isSome f s)) = u at hout
  refine h.trans ⟨fun _ => ?_, fun hs => ?_⟩
  · show (u.mon.started c.cause).Lawful u.txe.array.activeSlot
    rw [hout.array]
    exact u.mon.started_lawful _
  · show u.scu.Lawful
    rcases hout.scu with hscu | hscu <;> rw [hscu]
    · exact hs
    · exact hs.discard

theorem startArmed (h : TellsKept o s) (a : Armed) (f : FrameNum) : TellsKept o (startArmed a f s) := by
  refine launch ?_ _ f
  rw [abandonHalted_eq]
  exact h.keeps rfl rfl rfl

theorem enterMuted (h : TellsKept o s) (x : MutedCause) (r : Option Slot) : TellsKept o (enterMuted x r s) := by
  rw [enterMuted_eq]
  exact h.left rfl rfl (.inr rfl)

theorem noteAtRest (h : TellsKept o s) {k : HaltContext} (ha : s.txe.array = .halted k) : TellsKept o (noteAtRest k s) :=
  h.keeps rfl rfl (by rw [ha]; rfl)

/-- The entry to ACTIVE: MON takes the pattern, SCU offers its deferred entry (R74, R108, R132). -/
theorem complete (h : TellsKept o s) (c : TxContext) : TellsKept o (complete c s) := by
  have tells : ∀ u : State, u.txe.array = .active c.target → u.scu = s.scu → TellsKept o (tellActive c.target u) := by
    intro u harray hscu
    refine h.trans ⟨fun _ => ?_, fun hs => ?_⟩
    · rw [tellActive_mon, tellActive, offerDeferred_array, State.setMon_txe, harray]
      exact Mon.enterActive_lawful ..
    · refine offerDeferred_lawful ?_
      rw [State.setMon_scu, hscu]
      exact hs
  unfold Machine.complete raiseCompleted
  refine tells _ ?_ ?_ <;> split <;> rfl

theorem takeRampEnds (h : TellsKept o s) (l : List (TowerIx × RampEnd)) : TellsKept o (takeRampEnds l s) := by
  unfold Machine.takeRampEnds
  split
  next c e ha => exact ite (h.complete c) (h.keeps rfl rfl (by rw [ha]; rfl))
  all_goals exact h

theorem takeAtRest (h : TellsKept o s) : TellsKept o (takeAtRest s) := by
  unfold Machine.takeAtRest
  split
  next c ha => exact ite (h.outside (by rw [ha]; rfl) (Outside.enterSwitching c s)) h
  · exact ite (h.enterMuted ..) h
  next k ha => exact ite (h.noteAtRest ha) h
  all_goals exact h

theorem frameEvent (h : TellsKept o s) (n : FrameNum) (b : Bool) : TellsKept o (frameEvent n b s) := by
  have h1 : TellsKept o (s.setTxe { s.txe with frame := some n }) := h.keeps rfl rfl rfl
  unfold Machine.frameEvent
  dsimp only
  split
  · exact ite (h1.withdraw _) (ite (h1.startArmed _ n) (ite h1 (h1.withdraw _)))
  · split
    next c f ha =>
      have hs := activeSlot_of_context (c := c) (congrArg ArrayState.context ha)
      exact ite (h1.outside hs (.startRampUp c _)) (ite h1 (h1.outside hs (.enterReadyUp c _ _)))
    all_goals exact h1

theorem writeFrames (h : TellsKept o s) (f : FrameSource) : TellsKept o (writeFrames f s) := by
  rw [writeFrames_eq]
  exact h.keeps rfl rfl rfl

theorem ringFrame (h : TellsKept o s) (f : FrameSource) (b : Bool) : TellsKept o (ringFrame f b s) :=
  ((h.frameEvent ..).writeFrames f).takeAtRest.takeRampEnds _

/-! ### Reports, losses and mutes -/

theorem judgeSwitching (h : TellsKept o s) : TellsKept o (judgeSwitching s) := by
  unfold Machine.judgeSwitching
  split
  next c ha => exact ite (h.outside (by rw [ha]; rfl) (.leaveSwitching c s)) h
  all_goals exact h

theorem unawait (h : TellsKept o s) (k : ContactorIx) : TellsKept o (unawait k s) := by
  unfold Machine.unawait
  split
  next c ha => exact h.keeps rfl rfl (by rw [ha]; rfl)
  all_goals exact h

theorem takeReport (h : TellsKept o s) (k : ContactorIx) (r : CtuReport) : TellsKept o (takeReport k r s) := by
  unfold Machine.takeReport
  split
  · exact h
  · exact (h.unawait k).judgeSwitching
  · exact (h.unawait k).judgeSwitching
  · exact ite (h.takeDrift k) h.judgeSwitching

theorem takeStuck (h : TellsKept o s) (k : ContactorIx) : TellsKept o (takeStuck k s) := by
  unfold Machine.takeStuck
  split
  · exact h.halt ..
  all_goals exact h

theorem takeCabinetLoss (h : TellsKept o s) (t : TowerIx) : TellsKept o (takeCabinetLoss t s) := by
  unfold Machine.takeCabinetLoss
  split
  · exact ite (h.halt ..) h
  all_goals exact h

theorem takeLost (h : TellsKept o s) : TellsKept o (takeLost s) := by
  unfold Machine.takeLost
  cases s.txe.array <;> dsimp only
  case active => exact ((h.withdraw _).setGuard _).enterMuted ..
  case muting => exact h.enterMuted ..
  case unset | muted | halted => exact h
  all_goals exact h.halt ..

theorem takeRegain (h : TellsKept o s) : TellsKept o (takeRegain s) := by
  unfold Machine.takeRegain
  split
  next p ha => exact launch (s := s.setArray (.muted none)) (h.keeps rfl rfl (by rw [ha]; rfl)) ..
  all_goals exact h

/-- A resume pattern is dropped. -/
theorem unmute (h : TellsKept o s) {r : Option Slot} (ha : s.txe.array = .muted r) :
    TellsKept o (s.setArray (.muted none)) := h.keeps rfl rfl (by rw [ha]; rfl)

theorem takeInterlock (h : TellsKept o s) : TellsKept o (takeInterlock s) := by
  have h1 := h.withdraw .interlock
  unfold Machine.takeInterlock
  dsimp only
  generalize Machine.withdraw .interlock s = u at h1
  cases ha : u.txe.array <;> dsimp only
  case active => exact (h1.setGuard _).enterMuted ..
  case muting => exact h1.enterMuted ..
  case muted => exact h1.unmute ha
  case unset | halted => exact h1
  all_goals exact h1.halt ..

theorem muteTowers (h : TellsKept o s) (len : Nat) : TellsKept o (muteTowers len s) := by
  unfold Machine.muteTowers
  dsimp only
  generalize s.dsy.rampDownAll len 0 = d
  exact ite ((h.setDsy d).enterMuted ..) (h.left rfl rfl (.inl rfl))

theorem muteArray (h : TellsKept o s) (len : Nat) : TellsKept o (muteArray len s) := by
  unfold Machine.muteArray
  cases ha : s.txe.array <;> dsimp only
  case unset | muting => exact h
  case muted => exact h.unmute ha
  case active => exact (h.setGuard _).muteTowers len
  case halted => exact (h.closeRecord ..).muteTowers len
  all_goals exact ((h.closeRecord ..).setGuard _).muteTowers len

end TellsKept
end Sys2Proof.Machine
end

section
/-! SUPPORT. Schedule, monitor, ring, pins, loading and commands keep the laws of MON and SCU. -/
namespace Sys2Proof.Machine

/-! ## Loading (R138 to R148) -/

/-- t differs from s in PST and LDU only. -/
def LoadsOnly (s t : State) : Prop := t = (s.setPst t.pst).setLdu t.ldu

namespace LoadsOnly

variable {o s t : State}

theorem refl (s : State) : LoadsOnly s s := rfl

theorem trans (h : LoadsOnly o s) (k : LoadsOnly s t) : LoadsOnly o t :=
  calc t = (s.setPst t.pst).setLdu t.ldu := k
    _ = (((o.setPst s.pst).setLdu s.ldu).setPst t.pst).setLdu t.ldu := by rw [← h]

theorem setPst (h : LoadsOnly o s) (b : Pst) : LoadsOnly o (s.setPst b) := h.trans rfl
theorem setLdu (h : LoadsOnly o s) (b : Ldu) : LoadsOnly o (s.setLdu b) := h.trans rfl
theorem setClaim (h : LoadsOnly o s) (x : Target) (c : Option Claim) : LoadsOnly o (s.setClaim x c) := h.setLdu _

theorem onSlot (h : LoadsOnly o s) (x : Target) (f : Pst → Slot → Pst) : LoadsOnly o (onSlot x f s) := by
  unfold Machine.onSlot
  split
  · exact h.setPst _
  · exact h

theorem claimBody (m : Mgmt) (s : State) : LoadsOnly s (claimBody m s).1 := by
  unfold Machine.claimBody
  split
  · exact refl s
  · refine setClaim ?_ _ _
    unfold claimRegion
    split
    · exact ((refl s).setLdu _).setPst _
    · exact ((refl s).setLdu _).setLdu _

theorem writeSegment (h : LoadsOnly o s) {x : Target} {a : Nat} {ws : List Word} (hw : writeSegment x a ws s = .ok t) :
    LoadsOnly o t := by
  unfold Machine.writeSegment at hw
  split at hw
  · split at hw <;> cases hw
    exact h.setPst _
  · cases hw
    exact h.setLdu _

theorem appendWords (x : Target) (n : Nat) (ws : List Word) {r : LoadRun} (h : LoadsOnly o r.state) :
    LoadsOnly o (appendWords x n ws r).state := by
  induction ws generalizing r with
  | nil => exact h
  | cons w ws ih =>
    unfold Machine.appendWords
    split
    · split
      next hw => exact ih (r := ⟨_, _, _, _, _, _⟩) (h.writeSegment hw)
      next => exact h
    · exact ih (r := { r with held := r.held ++ [w] }) h

theorem loadBody (m : Mgmt) (s : State) : LoadsOnly s (loadBody m s).1 := by
  unfold Machine.loadBody
  split
  · exact refl s
  · split
    · exact refl s
    · exact ((appendWords _ _ _ (refl s)).setLdu _).setClaim ..

theorem flush_ok {x : Target} {c d : Claim} {b : Bool} (hf : flush x c s = .ok (t, d, b)) : LoadsOnly s t := by
  unfold flush at hf
  split at hf
  · cases hf
    exact refl s
  · split at hf
    next hw => cases hf; exact ((refl s).writeSegment hw).setLdu _
    next => cases hf

theorem flush_error {x : Target} {c : Claim} {r : State × Answer} (hf : flush x c s = .error r) : LoadsOnly s r.1 := by
  unfold flush at hf
  split at hf
  · cases hf
  · split at hf <;> cases hf
    exact ((refl s).setLdu _).setClaim ..

theorem commitBody (m : Mgmt) (s : State) : LoadsOnly s (commitBody m s).1 := by
  unfold Machine.commitBody
  split
  · exact refl s
  · split
    · exact refl s
    · unfold takeCommit
      split
      next hf => exact flush_error hf
      next hf => exact (flush_ok hf).setClaim ..

theorem finishBody (m : Mgmt) (s : State) : LoadsOnly s (finishBody m s).1 := by
  unfold Machine.finishBody
  split
  · exact refl s
  · split
    · exact refl s
    · unfold takeFinish
      split
      next hf => exact flush_error hf
      next hf => exact ((flush_ok hf).onSlot ..).setClaim ..

theorem abandon (x : Target) (s : State) : LoadsOnly s (abandon x s) := (((refl s).setLdu _).onSlot ..).setClaim ..

theorem unclaimBody (m : Mgmt) (s : State) : LoadsOnly s (unclaimBody m s).1 := by
  unfold Machine.unclaimBody
  split
  · exact refl s
  · exact abandon _ s

end LoadsOnly

/-! ## The laws of MON and SCU under every command -/

/-! ### SCU's operations leave MON and the array state -/

section
variable (s : State)

/-- What an operation of SCU leaves of MON and of the array state. -/
abbrev ArrayAndMonKept (s t : State) : Prop := t.mon = s.mon ∧ t.txe.array = s.txe.array

theorem actOn_leaves (o : Occurrence) (f : Option FrameNum) : ArrayAndMonKept s (actOn o f s) :=
  ⟨actOn_mon .., actOn_array ..⟩

theorem takeOccurrence_leaves (o : Occurrence) : ArrayAndMonKept s (takeOccurrence o s) := by
  unfold takeOccurrence
  split
  · unfold holdDue
    split <;> exact ⟨rfl, rfl⟩
  · exact actOn_leaves ..

theorem fallDue_leaves (os : List Occurrence) : ArrayAndMonKept s (fallDue os s) := by
  induction os generalizing s with
  | nil => exact ⟨rfl, rfl⟩
  | cons o os ih =>
    cases os with
    | nil => exact takeOccurrence_leaves ..
    | cons p ps => exact ih (raiseDue o .missed .earlier none s)

theorem crossClock_leaves (d0 : Date) (t0 n : Nat) (d1 : Date) (t1 : Nat) :
    ArrayAndMonKept s (crossClock d0 t0 n d1 t1 s) := by
  unfold crossClock
  dsimp only
  split_ifs
  · exact ⟨rfl, rfl⟩
  · exact ⟨rfl, rfl⟩
  · exact fallDue_leaves (raiseClockSet d1 t1 n (s.setScu (s.scu.setClock d1 t1))) _
  · exact fallDue_leaves (s.setScu (s.scu.setClock d1 t1)) _
  · exact ⟨rfl, rfl⟩

theorem takeTime_leaves (b : TimeBody) : ArrayAndMonKept s (takeTime b s) := by
  unfold takeTime
  split
  · split
    · exact ⟨rfl, rfl⟩
    · exact crossClock_leaves ..
    · exact crossClock_leaves ..
  · exact ⟨rfl, rfl⟩

theorem holdOn_leaves : ArrayAndMonKept s (holdOn s) := by
  unfold holdOn
  repeat' split
  all_goals exact ⟨rfl, rfl⟩

theorem holdOff_leaves (b : Bool) : ArrayAndMonKept s (holdOff b s) := by
  unfold holdOff
  split
  · split
    · exact ⟨rfl, rfl⟩
    · dsimp only
      split
      · exact actOn_leaves (s.setScu { s.scu with hold := false, held := none }) _ _
      · exact ⟨rfl, rfl⟩
  · exact ⟨rfl, rfl⟩

/-! ### CTU's operations -/

@[simp] theorem takeReading_mon (c : ContactorIx) (e : Contactor) : (takeReading c e s).1.mon = s.mon := by
  unfold takeReading
  dsimp only
  repeat' split
  all_goals rfl

@[simp] theorem takeReading_scu (c : ContactorIx) (e : Contactor) : (takeReading c e s).1.scu = s.scu := by
  unfold takeReading
  dsimp only
  repeat' split
  all_goals rfl

end

theorem ArrayState.activeSlot_of_haltContext {a : ArrayState} {k : HaltContext} (h : a.haltContext = some k) :
    a.activeSlot = none := by
  cases a <;> first | rfl | cases h

theorem ArrayState.tick_activeSlot (a : ArrayState) : a.tick.activeSlot = a.activeSlot := by
  cases a with
  | readyUp c g => cases g <;> rfl
  | _ => rfl

namespace TellsKept

variable {o s t : State}

/-- An operation of SCU that keeps its law. -/
theorem ofScu (h : TellsKept o s) (hkept : ArrayAndMonKept s t) (hscu : s.scu.Lawful → t.scu.Lawful) : TellsKept o t := by
  obtain ⟨hmon, harray⟩ := hkept
  exact h.trans ⟨by rw [hmon, harray]; exact id, hscu⟩

theorem takeTime (h : TellsKept o s) (b : TimeBody) : TellsKept o (takeTime b s) :=
  h.ofScu (takeTime_leaves ..) (takeTime_lawful · b)

theorem holdOn (h : TellsKept o s) : TellsKept o (holdOn s) := h.ofScu (holdOn_leaves _) holdOn_lawful

theorem holdOff (h : TellsKept o s) (b : Bool) : TellsKept o (holdOff b s) := h.ofScu (holdOff_leaves ..) (holdOff_lawful · b)

theorem staleExpiry (h : TellsKept o s) : TellsKept o (staleExpiry s) := by
  unfold Machine.staleExpiry
  split
  · exact h.ofScu ⟨rfl, rfl⟩ fun hs => hs.congr rfl rfl rfl rfl
  all_goals exact h

/-! ### MON's own events -/

/-- A record is evaluated only where MON has a pattern of ACTIVE, and there the law asks for the counts alone (R110). -/
theorem evaluate (h : TellsKept o s) (rec : MonRecord) : TellsKept o (evaluate rec s) := by
  have he := evaluate_evaluated rec s
  cases hp : s.mon.active with
  | none => rw [evaluate_idle hp]; exact h
  | some p =>
    refine h.trans ⟨fun hs => ⟨?_, fun hn => ?_, he.towers hs.towers⟩, by rw [he.scu]; exact id⟩
    · rw [he.active, he.array]; exact hs.active
    · rw [he.array, ← hs.active, hp] at hn; cases hn

theorem takeRecord (h : TellsKept o s) (rx : Rx) : TellsKept o (takeRecord rx s) := by
  unfold Machine.takeRecord
  split
  · exact h
  next rec _ =>
    have hset : TellsKept o (s.setMon { s.mon with present := true, absence := some 0, lastSeq := some rec.seq }) :=
      h.setMon fun p hs => hs.congr rfl rfl rfl
    have taken : TellsKept o (recordTaken rec s) := ite hset (hset.raise ..)
    exact ite taken (taken.evaluate rec)

theorem absenceExpiry (h : TellsKept o s) : TellsKept o (absenceExpiry s) :=
  ite ((h.setMon (m := { s.mon with present := false, absence := none }) fun _ hs => hs.congr rfl rfl rfl).raise ..) h

theorem holdOffEnd (h : TellsKept o s) : TellsKept o (holdOffEnd s) := h.setMon fun _ hs => hs.setHoldOff fun _ => rfl

/-! ### The ring -/

theorem enterGood (h : TellsKept o s) : TellsKept o (enterGood s) :=
  (ite (p := s.rif.lossSinceGood = true) (((h.setRif _).takeRegain).raise ..) h).setRif _

theorem receiveSample (h : TellsKept o s) (rx : Rx) : TellsKept o (receiveSample rx s) := by
  unfold Machine.receiveSample
  split
  next f _ =>
    have entered := ite (p := s.rif.recv ≠ .good ∧ (s.rif.takeValid f.number rx).recv = .good)
      (h.setRif (s.rif.takeValid f.number rx)).enterGood (h.setRif (s.rif.takeValid f.number rx))
    exact ite entered ((entered.setDsy _).ringFrame ..)
  next => exact ite (h.setRif _) (((h.setRif _).setDsy _).ringFrame ..)

theorem missFrame (h : TellsKept o s) : TellsKept o (missFrame s) := ite h (((h.setRif _).setDsy _).ringFrame ..)

theorem localFrame (h : TellsKept o s) : TellsKept o (localFrame s) := ite (h.setDsy _).takeAtRest h

theorem lossExpiry (h : TellsKept o s) : TellsKept o (lossExpiry s) :=
  ite h (((((h.setRif _).setDsy _).takeLost.raise ..).setRif _).takeAtRest)

theorem receiveMgmt (h : TellsKept o s) (rx : Rx) : TellsKept o (receiveMgmt rx s) := by
  have h1 : TellsKept o (passMessage rx s) := h.setRif _
  unfold Machine.receiveMgmt
  split
  · exact ite (ite (h1.setCmu _) (h1.enter _)) h1
  · exact h1

theorem receiveTime (h : TellsKept o s) (rx : Rx) : TellsKept o (receiveTime rx s) := by
  have h1 : TellsKept o (passMessage rx s) := h.setRif _
  unfold Machine.receiveTime
  split
  · exact ite (h1.takeTime _) h1
  · exact h1

theorem receiveRelease (h : TellsKept o s) (rx : Rx) : TellsKept o (receiveRelease rx s) := by
  have h1 : TellsKept o (passMessage rx s) := h.setRif _
  exact ite (ite (ite ((h1.setRif _).setCmu _) h1) ((h1.setRif _).raise ..)) h1

theorem receiveEmpty (h : TellsKept o s) (rx : Rx) : TellsKept o (receiveEmpty rx s) := by
  have h1 : TellsKept o (passMessage rx s) := h.setRif _
  exact ite (h1.setRif _) h1

/-! ### Pins and timers -/

theorem ilkLineOpen (h : TellsKept o s) : TellsKept o (ilkLineOpen s) := by
  refine ite ?_ (h.setDsy _)
  unfold interlockOpens
  exact ((((h.setDsy _).setDsy _).raise ..).setDsy _).takeInterlock.takeAtRest

theorem ilkQualified (h : TellsKept o s) : TellsKept o (ilkQualified s) := ite ((h.setDsy _).raise ..) h

theorem rdyDebounced (h : TellsKept o s) (t : TowerIx) : TellsKept o (rdyDebounced t s) :=
  ite (ite ((h.setDsy _).raise ..) (((h.setDsy _).raise ..).takeCabinetLoss t)) h

theorem takeReading (h : TellsKept o s) (c : ContactorIx) (e : Contactor) : TellsKept o (takeReading c e s).1 :=
  h.keeps (takeReading_mon ..) (takeReading_scu ..) (by rw [UsesValid.takeReading_txe])

theorem readingChanged (h : TellsKept o s) (c : ContactorIx) : TellsKept o (readingChanged c s) := by
  unfold Machine.readingChanged
  split
  · exact h
  · exact (h.takeReading ..).takeReport ..

theorem auxDebounced (h : TellsKept o s) (c : ContactorIx) (i : AuxInput) : TellsKept o (auxDebounced c i s) :=
  have h1 : TellsKept o (s.onUnit c fun u => u.debounced i) := h.setCtu _
  ite (ite h1 (h1.readingChanged c)) h

theorem travelExpired (h : TellsKept o s) (c : ContactorIx) : TellsKept o (travelExpired c s) := by
  unfold Machine.travelExpired
  split
  · exact h
  · exact ite (((h.setCtu _).raise ..).takeStuck c) h

theorem settleExpired (h : TellsKept o s) : TellsKept o (settleExpired s) := by
  unfold Machine.settleExpired
  split
  next c _ ha => exact h.outside (by rw [ha]; rfl) (.afterSettle c s)
  all_goals exact h

theorem gateExpired (h : TellsKept o s) : TellsKept o (gateExpired s) := by
  unfold Machine.gateExpired
  split
  · exact h.halt ..
  all_goals exact h

/-! ### Loading -/

/-- Loading tells MON and SCU nothing. -/
theorem loads (h : TellsKept o s) (k : LoadsOnly s t) : TellsKept o t := by
  rw [k]
  exact (h.setPst _).setLdu _

theorem lapse (h : TellsKept o s) (x : Target) : TellsKept o (lapse x s) := by
  unfold Machine.lapse
  split
  · exact h
  · exact ite h ((h.loads (.abandon x s)).raise ..)

theorem replaceContactors (h : TellsKept o s) (w : Nat → Word) : TellsKept o (replaceContactors w s) := by
  unfold Machine.replaceContactors
  refine foldl (fun t c ht => ?_) _ (h.setCtu _)
  split
  · exact ite (ht.raise ..) ht
  · exact ht

theorem discardForTable (h : TellsKept o s) (x : Option Occurrence) : TellsKept o (discardForTable x s) := by
  unfold Machine.discardForTable
  split
  · exact h.keeps rfl rfl rfl
  · exact h

/-- A new Schedule Table discards the deferred and the held-due entry (R128). -/
theorem replaceSchedule (h : TellsKept o s) (w : Nat → Word) : TellsKept o (replaceSchedule w s) := by
  unfold Machine.replaceSchedule
  dsimp only
  have hdiscarded := (h.discardForTable s.scu.deferred).discardForTable s.scu.held
  exact hdiscarded.ofScu ⟨State.setScu_mon .., congrArg Txe.array (State.setScu_txe ..)⟩ fun _ => .clear rfl rfl

theorem makeLive (h : TellsKept o s) (x : Target) (v : Word) : TellsKept o (makeLive x v s) := by
  unfold Machine.makeLive
  split
  · exact h.loads ((LoadsOnly.refl s).onSlot ..)
  · exact (ite (h.replaceContactors _) (h.replaceSchedule _)).setLdu _

theorem completeCheck (h : TellsKept o s) (x : Target) : TellsKept o (completeCheck x s) := by
  unfold Machine.completeCheck
  split
  · exact h
  · split
    · exact h
    · refine raise ?_ ..
      unfold actOnCheck
      split
      · exact (h.makeLive ..).setClaim ..
      · exact h.loads (((LoadsOnly.refl s).onSlot ..).setClaim ..)

/-! ### Commands -/

theorem switchBody (h : TellsKept o s) (m : Mgmt) : TellsKept o (switchBody m s).1 := by
  unfold Machine.switchBody
  dsimp only
  split
  · exact h
  · split
    · exact h
    · split
      · exact h
      · rw [arm_eq]
        exact h.keeps rfl rfl s.txe.array.unmuted_same.2.1

theorem withdrawBody (h : TellsKept o s) (m : Mgmt) : TellsKept o (withdrawBody m s).1 := by
  unfold Machine.withdrawBody
  split
  · exact h
  · exact h.keeps rfl rfl rfl

theorem goBody (h : TellsKept o s) (m : Mgmt) : TellsKept o (goBody m s).1 := by
  unfold Machine.goBody
  split
  next c _ ha =>
    split
    · exact h
    · exact h.keeps rfl rfl (by rw [ha]; rfl)
  all_goals exact h

theorem continueBody (h : TellsKept o s) (m : Mgmt) : TellsKept o (continueBody m s).1 := by
  unfold Machine.continueBody
  split
  · exact h
  next k ha =>
    split_ifs
    · exact h
    · exact h
    · have hs : (Machine.withdraw .replaced s).txe.array.activeSlot = none := by
        rw [withdraw_txe]; exact ArrayState.activeSlot_of_haltContext ha
      exact ((h.withdraw .replaced).outside hs (.enterSwitching _ _)).raise ..

theorem retreatBody (h : TellsKept o s) (m : Mgmt) : TellsKept o (retreatBody m s).1 := by
  unfold Machine.retreatBody
  split
  · exact h
  · split
    · exact h
    · split
      · exact h
      · split
        · exact h
        · exact ((h.withdraw .replaced).closeRecord ..).launch ..

theorem moveBody (h : TellsKept o s) (m : Mgmt) : TellsKept o (moveBody m s).1 := by
  unfold Machine.moveBody
  split
  · exact h.keeps (moveRequest_mon ..) (moveRequest_scu ..) (by rw [moveRequest_txe])
  · exact h

theorem ackFaultBody (h : TellsKept o s) (m : Mgmt) : TellsKept o (ackFaultBody m s).1 := h.setMon fun _ => .ackFault

theorem trimClearBody (h : TellsKept o s) (m : Mgmt) : TellsKept o (trimClearBody m s).1 :=
  ite ((h.setPst _).setMon fun _ => .clearLimits) (h.setPst _)

theorem scheduleHoldBody (h : TellsKept o s) (m : Mgmt) : TellsKept o (scheduleHoldBody m s).1 := by
  unfold Machine.scheduleHoldBody
  split
  · exact h.holdOn
  · exact h.holdOff _

/-! ### Power, RESTART and time -/

theorem restartBody (s : State) (m : Mgmt) : TellsKept s (restartBody m s).1 :=
  ⟨fun _ => s.mon.restart_lawful, fun _ => .clear rfl rfl⟩

theorem powerOn (a : BitVec 4) (s : State) : TellsKept s (powerOn a s) := ⟨fun _ => Mon.reset_lawful, fun _ => .clear rfl rfl⟩

theorem resetHeld (s : State) : TellsKept s (resetHeld s) := ⟨fun _ => Mon.reset_lawful, fun _ => .clear rfl rfl⟩

theorem tickMs (h : TellsKept o s) : TellsKept o (tickMs s) := by
  refine h.trans ⟨fun hs => ?_, fun hs => hs.congr rfl rfl rfl rfl⟩
  show ({ s.mon with absence := tickTimer s.mon.absence, holdOff := tickTimer s.mon.holdOff } : Mon).Lawful
    s.txe.array.tick.activeSlot
  rw [ArrayState.tick_activeSlot]
  exact (hs.setHoldOff (x := tickTimer s.mon.holdOff) fun hn => by rw [hn]; rfl).congr rfl rfl rfl

theorem idle (s : State) : TellsKept s (idle s) := by
  unfold Machine.idle
  split
  · split
    · exact (refl s).keeps rfl rfl rfl
    · refine ite ?_ (refl s)
      have hquarter : TellsKept s (tickQuarter s) := (refl s).keeps rfl rfl rfl
      unfold tick
      dsimp only
      split
      · exact hquarter.tickMs.keeps rfl rfl rfl
      · exact hquarter.keeps rfl rfl rfl
  · exact refl s

theorem whileRunning {f : State → State} (hf : TellsKept s (f s)) : TellsKept s (whileRunning f s) := ite hf (refl s)

theorem whileCounting {f : State → State} (hf : TellsKept s (f s)) : TellsKept s (whileCounting f s) := ite hf (refl s)

theorem finish (h : TellsKept o s) (m : Mgmt) (a : Answer) : TellsKept o (finishCommand m (s, a)) := h.keeps rfl rfl rfl

/-- A command of CMU keeps the laws when its block does (R166). -/
theorem serve {c : Cmd} {body : Mgmt → State → State × Answer} (hb : ∀ m, TellsKept s (body m s).1) :
    TellsKept s (Machine.whileRunning (serve c body) s) := by
  refine whileRunning ?_
  unfold Machine.serve
  split
  · exact refl s
  next m _ _ =>
    refine ite ?_ (refl s)
    unfold runCommand
    split
    · exact (refl s).finish ..
    · exact (hb m).finish ..

theorem serveUnknown (s : State) : TellsKept s (serveUnknown s) := by
  unfold Machine.serveUnknown
  split
  · exact refl s
  · exact ite ((refl s).finish ..) (refl s)

end TellsKept

/-- Every command keeps the laws of MON and SCU. -/
theorem exec_tellsKept (i : Instr) (s : State) : ∃ t, exec i s = .next t ∧ TellsKept s t := by
  have h := TellsKept.refl s
  cases i with
  | powerOnReset a => exact ⟨_, rfl, .powerOn a s⟩
  | resetAsserted => exact ⟨_, rfl, .resetHeld s⟩
  | refclkStopped => exact ⟨_, rfl, h.keeps rfl rfl rfl⟩
  | refclkReturned => exact ⟨_, rfl, h.keeps rfl rfl rfl⟩
  | sampleFrame rx => exact ⟨_, rfl, .whileRunning (h.receiveSample rx)⟩
  | missedFrame => exact ⟨_, rfl, .whileCounting h.missFrame⟩
  | localPaceFrame => exact ⟨_, rfl, .whileCounting h.localFrame⟩
  | lossTimerExpiry => exact ⟨_, rfl, .whileCounting h.lossExpiry⟩
  | mgmtFrame rx => exact ⟨_, rfl, .whileRunning (h.receiveMgmt rx)⟩
  | timeFrame rx => exact ⟨_, rfl, .whileRunning (h.receiveTime rx)⟩
  | releaseFrame rx => exact ⟨_, rfl, .whileRunning (h.receiveRelease rx)⟩
  | emptyFrame rx => exact ⟨_, rfl, .whileRunning (h.receiveEmpty rx)⟩
  | status => exact ⟨_, rfl, .serve fun _ => h⟩
  | switch => exact ⟨_, rfl, .serve h.switchBody⟩
  | withdraw => exact ⟨_, rfl, .serve h.withdrawBody⟩
  | go => exact ⟨_, rfl, .serve h.goBody⟩
  | continueTx => exact ⟨_, rfl, .serve h.continueBody⟩
  | retreat => exact ⟨_, rfl, .serve h.retreatBody⟩
  | mute => exact ⟨_, rfl, .serve fun _ => (h.withdraw .mute).muteArray _⟩
  | move => exact ⟨_, rfl, .serve h.moveBody⟩
  | ackFault => exact ⟨_, rfl, .serve h.ackFaultBody⟩
  | trimClear => exact ⟨_, rfl, .serve h.trimClearBody⟩
  | scheduleHold => exact ⟨_, rfl, .serve h.scheduleHoldBody⟩
  | claim => exact ⟨_, rfl, .serve fun m => h.loads (.claimBody m s)⟩
  | load => exact ⟨_, rfl, .serve fun m => h.loads (.loadBody m s)⟩
  | commit => exact ⟨_, rfl, .serve fun m => h.loads (.commitBody m s)⟩
  | finish => exact ⟨_, rfl, .serve fun m => h.loads (.finishBody m s)⟩
  | unclaim => exact ⟨_, rfl, .serve fun m => h.loads (.unclaimBody m s)⟩
  | read => exact ⟨_, rfl, .serve fun _ => h⟩
  | reporting => exact ⟨_, rfl, .serve fun _ => h.setRif _⟩
  | clearOverflow => exact ⟨_, rfl, .serve fun _ => h.setCmu _⟩
  | restart => exact ⟨_, rfl, .serve (.restartBody s)⟩
  | interlockOpening => exact ⟨_, rfl, h.ilkLineOpen⟩
  | interlockLineClosed => exact ⟨_, rfl, h.setDsy _⟩
  | interlockQualified => exact ⟨_, rfl, .whileCounting h.ilkQualified⟩
  | rdyLineChange t b => exact ⟨_, rfl, h.setDsy _⟩
  | cabinetDebounceExpiry t => exact ⟨_, rfl, .whileCounting (h.rdyDebounced t)⟩
  | auxInputChange c a b => exact ⟨_, rfl, h.setCtu _⟩
  | auxDebounceExpiry c a => exact ⟨_, rfl, .whileCounting (h.auxDebounced c a)⟩
  | travelLimitExpiry c => exact ⟨_, rfl, .whileCounting (h.travelExpired c)⟩
  | settleTimerExpiry => exact ⟨_, rfl, .whileCounting h.settleExpired⟩
  | gateTimerExpiry => exact ⟨_, rfl, .whileCounting h.gateExpired⟩
  | checkCompletion x => exact ⟨_, rfl, .whileRunning (h.completeCheck x)⟩
  | claimLapse x => exact ⟨_, rfl, .whileCounting (h.lapse x)⟩
  | monitorRecord rx => exact ⟨_, rfl, .whileRunning (h.takeRecord rx)⟩
  | absenceTimerExpiry => exact ⟨_, rfl, .whileCounting h.absenceExpiry⟩
  | holdOffExpiry => exact ⟨_, rfl, .whileCounting h.holdOffEnd⟩
  | staleTimerExpiry => exact ⟨_, rfl, .whileCounting h.staleExpiry⟩
  | unknownCommand => exact ⟨_, rfl, .whileRunning (.serveUnknown s)⟩

/-- Settles O60: every entry to and exit from ACTIVE tells MON in the same step (`Outside` for the phases between), an evaluation
runs in ACTIVE alone, and an occurrence fires or is deferred only with the hold flag clear. -/
theorem stepsKeepTheMonitorAndScheduleLaws : Obligations.StepsKeepTheMonitorAndScheduleLaws := by
  intro s t hstep
  rw [monitorLaw_iff, monitorLaw_iff, scheduleLaw_iff, scheduleLaw_iff]
  unfold step at hstep
  split at hstep
  next =>
    cases hstep
    have hkept := TellsKept.idle s
    exact ⟨hkept.mon, hkept.scu⟩
  next c rest _ =>
    obtain ⟨u, hu, hkept⟩ := exec_tellsKept c (s.setPending rest)
    rw [hu] at hstep
    cases hstep
    exact ⟨hkept.mon, hkept.scu⟩

end Sys2Proof.Machine
end

section
/-! SUPPORT. The evaluation of a tower case by case, the fault action by the answer of TXE, and ACK_FAULT. -/
namespace Sys2Proof.Machine

/-! ## Tolerance (R112, R113) -/

theorem inTolerance_iff (w : Nat → Word) (t : TowerIx) (r : Nat) (m : Int) : inTolerance w t r m = true
    ↔ ((r : Int) - recRatio w t).natAbs * 1000 ≤ recRatioTol w t * recRatio w t
      ∧ (fold (m - recLicPhase w t)).natAbs ≤ recPhaseTol w t := by
  unfold inTolerance ratioError phaseError
  rw [Bool.and_eq_true, decide_eq_true_iff, decide_eq_true_iff]

section
variable {w : Nat → Word} {t : TowerIx} {r : Nat} {m : Int} {q : BitVec 8} {s : State}

theorem judgeTower_tolerated (hin : inTolerance w t r m = true) (hx : s.mon.towers[t].status ≠ .fault) :
    judgeTower w t r m q s = setStatus t .inTol 0 s := by
  simp only [judgeTower, hin, hx, if_true, if_false]

theorem judgeTower_clears (hin : inTolerance w t r m = true) (hx : s.mon.towers[t].status = .fault) :
    judgeTower w t r m q s = (setStatus t .inTol 0 s).raise .toleranceClear (subjectOf t.val)
      [word (min 65535 r), signedWord m, q.setWidth 16] := by
  simp only [judgeTower, hin, hx, if_true]

theorem judgeTower_stays (hout : inTolerance w t r m = false) (hx : s.mon.towers[t].status = .fault) :
    judgeTower w t r m q s = s := by
  simp only [judgeTower, hout, hx, Bool.false_eq_true, if_true, if_false]

/-- Out of tolerance a tower counts from 1, or one further in OUT, up to the grace count (R112). -/
theorem judgeTower_counts (hout : inTolerance w t r m = false) (hx : s.mon.towers[t].status ≠ .fault) {n : Nat}
    (hn : n = if s.mon.towers[t].status = .out then s.mon.towers[t].count + 1 else 1) : judgeTower w t r m q s
      = if recGrace w ≤ n then declareFault w t r m q s else setStatus t .out n s := by
  simp only [judgeTower, hout, hx, hn, Bool.false_eq_true, if_false]

end

/-! ## The fault action (R114) -/

section
variable {w : Nat → Word} {k : Slot} {s u : State} {a : ReqAnswer}

theorem takeFaultAction_report (h : recFallback w = none) : takeFaultAction w s = (s, .reported) := by
  simp only [takeFaultAction, h]

theorem takeFaultAction_spent (h : recFallback w = some k) (hspent : s.mon.spent = true) :
    takeFaultAction w s = (s, .skippedSpent) := by
  simp only [takeFaultAction, h, hspent, if_true]

/-- With the fallback unspent TXE's answer gives the action. -/
theorem takeFaultAction_requests (h : recFallback w = some k) (hspent : s.mon.spent = false)
    (hr : request k (recMode (s.recordOf k)) none .fallback s = (u, a)) : takeFaultAction w s
      = (u.setMon { u.mon with spent := u.mon.spent || (actionOf a == .fallback) }, actionOf a) := by
  simp only [takeFaultAction, h, hspent, hr, Bool.false_eq_true, if_false]

/-- An answer that arms nothing leaves the flag. -/
theorem takeFaultAction_skips (h : recFallback w = some k) (hspent : s.mon.spent = false)
    (hr : request k (recMode (s.recordOf k)) none .fallback s = (u, a)) (ha : (actionOf a == .fallback) = false) :
    takeFaultAction w s = (u, actionOf a) := by
  rw [takeFaultAction_requests h hspent hr, ha, Bool.or_false]
  rfl

/-- The fault action leaves every tower of MON alone. -/
theorem takeFaultAction_towers (w : Nat → Word) (s : State) : (takeFaultAction w s).1.mon.towers = s.mon.towers := by
  unfold takeFaultAction
  split
  · rfl
  · split
    · rfl
    next k _ _ => exact (congrArg Mon.towers (request_mon s k (recMode (s.recordOf k)) none .fallback) :)

end

/-- Settles O51: the rows of R112 one by one, and the actions of R114 by TXE's answer. -/
theorem toleranceIsJudgedByTheTable : Obligations.ToleranceIsJudgedByTheTable := by
  refine ⟨rfl, fun w t r m q s => ?judged, fun w s => ⟨takeFaultAction_report, fun k hk => ⟨takeFaultAction_spent hk,
    fun hspent u a hr => ?action⟩⟩⟩
  case judged =>
    intro x tolerated now
    have hin : inTolerance w t r m = true ↔ tolerated := inTolerance_iff w t r m
    have hout : ¬ tolerated → inTolerance w t r m = false := fun h => by rw [← hin] at h; simpa using h
    refine ⟨fun h => judgeTower_tolerated (hin.2 h), fun h => judgeTower_clears (hin.2 h), fun h => judgeTower_stays (hout h),
      fun h hx => ⟨fun hn => ?_, fun hn => ?_⟩⟩
    · exact (judgeTower_counts (hout h) hx rfl).trans (if_neg (Nat.not_le.2 hn))
    · exact (judgeTower_counts (hout h) hx rfl).trans (if_pos hn)
  case action =>
    have skips := takeFaultAction_skips hk hspent hr
    refine ⟨?_, ?_, ?_, ?_, ?_⟩
    · rintro f rfl
      rw [takeFaultAction_requests hk hspent hr]
      simp only [actionOf, beq_self_eq_true, Bool.or_true]
    · rintro rfl; exact skips rfl
    · rintro rfl; exact skips rfl
    · rintro rfl; exact skips rfl
    · rintro b rfl; exact skips rfl

/-! ## ACK_FAULT (R116) -/

theorem exec_ackFault {m : Mgmt} {s : State} (h : Serves .ackFault m s) :
    exec .ackFault s = .next (finishCommand m (ackFaultBody m s)) := congrArg Host.Outcome.next (serve_served h ackFaultBody)

theorem Mon.ackFault_tower (m : Mon) (k : TowerIx) : m.ackFault.towers[k] = { m.towers[k] with
    count := 0, status := if m.towers[k].status = .fault ∨ m.towers[k].status = .out then .out else m.towers[k].status } :=
  map_get ..

theorem Mon.faults_eq (m : Mon) : m.faults = ((List.finRange 8).filter fun k => m.towers[k].status == .fault).length := by
  rw [Mon.faults, show allTowers = List.finRange 8 from by decide]

theorem setStatus_tower (t : TowerIx) (x : Tolerance) (n : Nat) (s : State) :
    (setStatus t x n s).mon.towers[t] = { s.mon.towers[t] with status := x, count := n } :=
  (setAt_get ..).trans (if_pos rfl)

/-- The tower that enters FAULT is in FAULT, whatever the fault action (R113). -/
theorem declareFault_status (w : Nat → Word) (t : TowerIx) (r : Nat) (m : Int) (q : BitVec 8) (s : State) :
    (declareFault w t r m q s).mon.towers[t].status = .fault := by
  simp only [declareFault, State.raise_mon, takeFaultAction_towers, setStatus_tower]

/-- Settles O36: ACK_FAULT tower by tower, then the evaluation of a tower that it left OUT with no count. -/
theorem ackFaultClearsTheFaults : Obligations.AckFaultClearsTheFaults := by
  refine ⟨fun m s hs => ⟨s.mon.ackFault, ?_, rfl, fun k => ?tower⟩, fun m => ?count, fun w t r a q s hstatus hcount => ?after⟩
  · rw [exec_ackFault hs, ackFaultBody, Mon.faults_eq]; rfl
  case tower =>
    rw [Mon.ackFault_tower]
    refine ⟨rfl, rfl, fun h => if_pos h, fun hfault hout => if_neg ?_⟩
    rintro (h | h)
    · exact hfault h
    · exact hout h
  case count =>
    rw [precheck_of_count rfl rfl]
    simp [Cmd.admitsCount]
  case after =>
    intro x tolerated
    have hin : inTolerance w t r a = true ↔ tolerated := inTolerance_iff w t r a
    have hx : s.mon.towers[t].status ≠ .fault := by rw [hstatus]; decide
    have counts : ¬ tolerated → judgeTower w t r a q s
        = if recGrace w ≤ 1 then declareFault w t r a q s else setStatus t .out 1 s := fun h =>
      judgeTower_counts (by rw [← hin] at h; simpa using h) hx (by rw [if_pos hstatus, hcount])
    refine ⟨fun h => ?_, fun h hn => ?_, fun h hn => ?_⟩
    · simp only [x, judgeTower_tolerated (q := q) (hin.2 h) hx, setStatus_tower, and_self]
    · simp only [x, counts h, if_neg (Nat.not_le.2 hn), setStatus_tower, and_self]
    · simp only [x, counts h, if_pos hn, declareFault_status]

end Sys2Proof.Machine
end

section
/-! SUPPORT. Monitor records read from their words, what a valid record does, and the timers of MON and of the station clock. -/
namespace Sys2Proof.Machine

/-! ## Records on MON IN (R105) -/

/-- A record whose check word is right has its sequence number in word 0, its flags in word 1, its channels in the rest. -/
theorem parseMonRecord_sealWords (w0 f : Word) (d : List Word) : parseMonRecord (sealWords (w0 :: f :: d))
    = if d.length = 18 then some { seq := w0.extractLsb' 0 8, flags := f, data := d } else none := by
  simp only [parseMonRecord, checkedWords_sealWords]

theorem parseMonRecord_length {ws : List Word} (h : ws.length ≠ 20) : parseMonRecord (sealWords ws) = none := by
  match ws with
  | [] => simp only [parseMonRecord, checkedWords_sealWords]
  | [_] => simp only [parseMonRecord, checkedWords_sealWords]
  | w0 :: f :: d =>
    rw [parseMonRecord_sealWords, if_neg fun hd => h (by rw [List.length_cons, List.length_cons, hd])]

theorem parseMonRecord_unchecked {rx : Rx} (h : checkedWords rx = none) : parseMonRecord rx = none := by
  simp only [parseMonRecord, h]

theorem extractLsb'_setWidth_byte (b : BitVec 8) : (b.setWidth 16).extractLsb' 0 8 = b := by
  apply BitVec.eq_of_toNat_eq
  simp only [BitVec.extractLsb'_toNat, BitVec.toNat_setWidth, Nat.shiftRight_zero]
  omega

theorem extractLsb'_byte_toNat (w : Word) : (w.extractLsb' 0 8).toNat = field w 0 8 := by
  simp [field, BitVec.extractLsb'_toNat]

/-- The fields of a record in its words: magnitude c in word 2 + 2c, phase c in word 3 + 2c (11.5). -/
theorem parseMonRecord_fields {ws : List Word} (h : ws.length = 20) : ∃ rec, parseMonRecord (sealWords ws) = some rec
    ∧ rec.seq.toNat = field (ws.getD 0 0) 0 8 ∧ rec.flags = ws.getD 1 0
    ∧ ∀ c, rec.magnitude c = (ws.getD (2 + 2 * c) 0).toNat ∧ rec.phase c = (ws.getD (3 + 2 * c) 0).toNat := by
  match ws with
  | w0 :: f :: d =>
    have hd : d.length = 18 := by simpa using h
    refine ⟨_, (parseMonRecord_sealWords w0 f d).trans (if_pos hd), extractLsb'_byte_toNat w0, rfl, fun c => ⟨?_, ?_⟩⟩
    · rw [show 2 + 2 * c = 2 * c + 1 + 1 by omega, List.getD_cons_succ, List.getD_cons_succ]; rfl
    · rw [show 3 + 2 * c = 2 * c + 1 + 1 + 1 by omega, List.getD_cons_succ, List.getD_cons_succ]; rfl

theorem MonRecord.channelValid_iff (r : MonRecord) (c : Nat) :
    r.channelValid c = true ↔ r.flags.getLsbD c = true ∧ r.phase c ≤ 35999 := by
  rw [MonRecord.channelValid, Bool.and_eq_true, decide_eq_true_iff]

/-! ## A record taken (R105, R106, R110) -/

theorem referenceChannel_eq (w : Nat → Word) : referenceChannel w = if (w 4).toNat < 8 then (w 4).toNat else 8 := by
  unfold referenceChannel recReference
  split_ifs <;> rfl

theorem evaluable_iff (w : Nat → Word) (rec : MonRecord) (m : Mon) : evaluable w rec m = true ↔ m.holdOff = none
    ∧ rec.channelValid (referenceChannel w) = true ∧ 1024 ≤ rec.magnitude (referenceChannel w) := by
  rw [evaluable, Bool.and_eq_true, Bool.and_eq_true, decide_eq_true_iff, Option.isNone_iff_eq_none, and_assoc]

section
variable {rec : MonRecord} {s : State}

theorem exec_monitorRecord (hrun : s.running = true) (rx : Rx) :
    exec (.monitorRecord rx) s = .next (takeRecord rx s) := congrArg Host.Outcome.next (if_pos hrun)

theorem takeRecord_discarded {rx : Rx} (h : parseMonRecord rx = none) : takeRecord rx s = s := by
  simp only [takeRecord, h]

theorem takeRecord_valid {rx : Rx} (h : parseMonRecord rx = some rec) : takeRecord rx s
    = if s.mon.lastSeq = some rec.seq then recordTaken rec s else evaluate rec (recordTaken rec s) := by
  simp only [takeRecord, h]

/-- What a valid record leaves of MON and of the store, before any evaluation. -/
theorem recordTaken_leaves (rec : MonRecord) (s : State) : (recordTaken rec s).mon.active = s.mon.active
    ∧ (recordTaken rec s).mon.holdOff = s.mon.holdOff ∧ (recordTaken rec s).pst = s.pst := by
  unfold recordTaken
  dsimp only
  split <;> exact ⟨rfl, rfl, rfl⟩

/-- In ACTIVE an evaluable record is evaluated tower by tower, and no other one is. -/
theorem evaluate_active {p : Slot} (hp : s.mon.active = some p) : evaluate rec s
    = if evaluable (s.recordOf p) rec s.mon = true then allTowers.foldl (evaluateTower (s.recordOf p) p rec) s else s := by
  simp only [evaluate, hp]

end

/-! ## Timers (R106, R109, R123) -/

section
variable {s : State}

theorem whileCounting_taken (h : Counting s) (f : State → State) : whileCounting f s = f s :=
  if_pos (by rw [h.1, h.2]; rfl)

theorem absenceExpiry_present (hpresent : s.mon.present = true) (habsence : s.mon.absence ≠ none) :
    absenceExpiry s = (s.setMon { s.mon with present := false, absence := none }).raise .monitorAbsent none
      [((s.mon.lastSeq).getD 0).setWidth 16] :=
  if_pos ⟨hpresent, Option.isSome_iff_ne_none.2 habsence⟩

theorem absenceExpiry_idle (h : s.mon.present = false ∨ s.mon.absence = none) : absenceExpiry s = s := by
  refine if_neg ?_
  rintro ⟨hpresent, habsence⟩
  rcases h with h | h
  · rw [h] at hpresent; cases hpresent
  · rw [h] at habsence; cases habsence

theorem staleExpiry_set {d : Date} {t : Nat} (hclock : s.scu.clock = .set d t) (hstale : s.scu.stale ≠ none) :
    staleExpiry s = (s.setScu { s.scu with clock := .stale d t, stale := none }).raise .clockStale none
      (twoWords (timestamp d t)) := by
  obtain ⟨n, hn⟩ := Option.ne_none_iff_exists'.1 hstale
  simp only [staleExpiry, hclock, hn]

theorem staleExpiry_idle (h : s.scu.stale = none ∨ ∀ d t, s.scu.clock ≠ .set d t) : staleExpiry s = s := by
  unfold staleExpiry
  split
  next d t n hclock hstale =>
    rcases h with h | h
    · rw [h] at hstale; cases hstale
    · exact absurd hclock (h d t)
  all_goals rfl

end

/-- Settles O50: a record's words, what a valid one does by the state of MON, and the expiries. -/
theorem monitorRecordsAndTimers : Obligations.MonitorRecordsAndTimers := by
  refine ⟨fun rec h => ?sent, fun ws => ⟨parseMonRecord_length, fun h => ?fields⟩, fun rx => parseMonRecord_unchecked,
    MonRecord.channelValid_iff, fun rx s hrun => ⟨fun h => ?discarded, fun rec h => ?taken⟩, fun s hcount => ?timers⟩
  case sent =>
    rw [parseMonRecord_sealWords, if_pos h, extractLsb'_setWidth_byte]
  case fields =>
    obtain ⟨rec, hrec, hseq, hflags, hdata⟩ := parseMonRecord_fields h
    exact ⟨rec, hrec, hseq, hflags, fun c _ => hdata c⟩
  case discarded =>
    rw [exec_monitorRecord hrun, takeRecord_discarded h]
  case taken =>
    intro u v
    have hv : recordTaken rec s = v := rfl
    obtain ⟨hactive, hhold, hpst⟩ := recordTaken_leaves rec s
    rw [hv] at hactive hhold hpst
    rw [exec_monitorRecord hrun, takeRecord_valid h, hv]
    refine ⟨fun hidle => ?_, fun hnew p hp => ?_⟩
    · split
      · rfl
      next hnew => rw [evaluate_idle (hactive.trans (hidle.resolve_left hnew))]
    · intro w ref
      have hrecord : v.recordOf p = w := congrArg (Pst.slotWord · p) hpst
      have href : referenceChannel w = ref := referenceChannel_eq w
      rw [if_neg hnew, evaluate_active (hactive.trans hp), hrecord]
      have hevaluable := evaluable_iff w rec v.mon
      rw [href, hhold] at hevaluable
      refine ⟨fun hnot => ?_, fun h1 h2 h3 => ?_⟩
      · rw [if_neg fun he => ?_]
        obtain ⟨h1, h2, h3⟩ := hevaluable.1 he
        rcases hnot with hn | hn | hn
        · exact hn h1
        · rw [h2] at hn; cases hn
        · exact absurd h3 (Nat.not_le.2 hn)
      · rw [if_pos (hevaluable.2 ⟨h1, h2, h3⟩), ← href]
        rfl
  case timers =>
    have expires : ∀ f : State → State, Host.Outcome.next (whileCounting f s) = (.next (f s) : Result) := fun f =>
      congrArg _ (whileCounting_taken hcount f)
    refine ⟨fun hpresent habsence n hn => ?_, fun h => ?_, expires holdOffEnd, fun d t hclock hstale => ?_, fun h => ?_⟩
    · refine (expires absenceExpiry).trans ?_
      rw [absenceExpiry_present hpresent habsence, hn]; rfl
    · exact (expires absenceExpiry).trans (congrArg _ (absenceExpiry_idle h))
    · exact (expires staleExpiry).trans (congrArg _ (staleExpiry_set hclock hstale))
    · exact (expires staleExpiry).trans (congrArg _ (staleExpiry_idle h))

end Sys2Proof.Machine
end

section
/-! SUPPORT. TIME frames: which RIF takes, what an accepted one does to the station clock, and the calendar. -/
namespace Sys2Proof.Machine

/-! ## What RIF hands on (R157, R159) -/

section
variable {rx : Rx} {s : State} {b : TimeBody}

/-- A frame whose check word is right is whole (R152). -/
theorem whole_of_checkedWords {ws : List Word} (h : checkedWords rx = some ws) : rx.aborted = false := by
  unfold checkedWords at h
  split at h
  next => cases h
  next ha => exact Bool.eq_false_iff.2 ha

theorem whole_of_parseTime (h : parseTime rx = some b) : rx.aborted = false := by
  unfold parseTime at h
  split at h
  next hws => exact whole_of_checkedWords hws
  next => cases h

theorem slotTakes_iff (s : State) : slotTakes s = true ↔ s.rif.slotOpen = true ∧ s.rif.recv ≠ .hunt := by
  simp only [slotTakes, Bool.and_eq_true, bne_iff_ne]

theorem receiveTime_passed (h : s.rif.slotOpen = false ∨ s.rif.recv = .hunt ∨ parseTime rx = none) :
    receiveTime rx s = passMessage rx s := by
  unfold receiveTime
  split
  next b hb =>
    refine if_neg fun htakes => ?_
    obtain ⟨hopen, hrecv⟩ := (slotTakes_iff s).1 htakes
    rcases h with h | h | h
    · rw [hopen] at h; cases h
    · exact hrecv h
    · rw [hb] at h; cases h
  next => rfl

/-- A whole TIME frame in its slot closes it and is handed to SCU (R157; log 16). -/
theorem receiveTime_taken (h : parseTime rx = some b) (hopen : s.rif.slotOpen = true) (hrecv : s.rif.recv ≠ .hunt) :
    receiveTime rx s = takeTime b (s.setRif { s.rif with slotOpen := false, out := some rx }) := by
  have htakes := (slotTakes_iff s).2 ⟨hopen, hrecv⟩
  simp only [receiveTime, h, htakes, if_true, passMessage, whole_of_parseTime h, Bool.and_false]

theorem exec_timeFrame (h : s.running = true) (rx : Rx) : exec (.timeFrame rx) s = .next (receiveTime rx s) :=
  congrArg Host.Outcome.next (if_pos h)

end

/-! ## The station clock (R122, R124) -/

theorem TimeBody.accepted_iff (b : TimeBody) : b.accepted = true
    ↔ (2000 ≤ b.year.toNat ∧ b.year.toNat ≤ 2099) ∧ (1 ≤ b.month ∧ b.month ≤ 12)
      ∧ (1 ≤ b.day ∧ b.day ≤ monthLength b.year.toNat b.month) ∧ b.second ≤ 86399 := by
  simp only [TimeBody.accepted, Bool.and_eq_true, decide_eq_true_eq, and_assoc]

theorem Date.next_ne (d : Date) : d.next ≠ d := by
  intro h
  unfold Date.next at h
  split_ifs at h
  · exact absurd (congrArg Date.day h) (Nat.succ_ne_self _)
  · exact absurd (congrArg Date.month h) (Nat.succ_ne_self _)
  · exact absurd (congrArg Date.year h) (Nat.succ_ne_self _)

theorem isForward_iff (d0 : Date) (t0 : Nat) (d1 : Date) (t1 : Nat) :
    isForward d0 t0 d1 t1 = true ↔ (d1 = d0 ∧ t0 < t1) ∨ d1 = d0.next := by
  simp only [isForward, Bool.or_eq_true, Bool.and_eq_true, beq_iff_eq, decide_eq_true_eq]

section
variable {s : State} {b : TimeBody} {d d1 : Date} {t t1 : Nat}

/-- The clock set to (d1, t1), with CLOCK_SET where it was STALE (R124, the rows that are no step). -/
def clockMoved (left : Nat) (d1 : Date) (t1 : Nat) (s : State) : State :=
  if left = 2 then raiseClockSet d1 t1 left (s.setScu (s.scu.setClock d1 t1)) else s.setScu (s.scu.setClock d1 t1)

theorem crossClock_same (h : d1 = d ∧ t1 = t) (left : Nat) : crossClock d t left d1 t1 s = clockMoved left d1 t1 s :=
  if_pos h

theorem crossClock_forward (h : (d1 = d ∧ t < t1) ∨ d1 = d.next) (left : Nat) :
    crossClock d t left d1 t1 s = fallDue (occurrences s.scu d t d1 t1) (clockMoved left d1 t1 s) := by
  have hmoved : ¬ (d1 = d ∧ t1 = t) := by
    rintro ⟨rfl, rfl⟩
    rcases h with ⟨_, hlt⟩ | hnext
    · exact lt_irrefl _ hlt
    · exact d1.next_ne hnext.symm
  exact (if_neg hmoved).trans (if_pos ((isForward_iff ..).2 h))

theorem crossClock_stepped (h : ¬ (d1 = d ∧ t ≤ t1)) (hnext : d1 ≠ d.next) (left : Nat) : crossClock d t left d1 t1 s
    = (s.setScu (s.scu.setClock d1 t1)).raise .clockStepped none
        (twoWords (timestamp d t) ++ twoWords (timestamp d1 t1)) := by
  have hmoved : ¬ (d1 = d ∧ t1 = t) := fun ⟨hd, ht⟩ => h ⟨hd, ht.ge⟩
  have hback : ¬ isForward d t d1 t1 = true := by
    rw [isForward_iff]
    rintro (⟨hd, hlt⟩ | hd)
    · exact h ⟨hd, hlt.le⟩
    · exact hnext hd
  exact (if_neg hmoved).trans (if_neg hback)

theorem takeTime_discarded (h : b.accepted ≠ true) :
    takeTime b s = s.raise .timeInvalid none [b.year, b.monthDay, b.secHi, b.secLo] := if_neg h

theorem takeTime_unset (h : b.accepted = true) (hc : s.scu.clock = .unset) :
    takeTime b s = raiseClockSet b.date b.second 0 (s.setScu (s.scu.setClock b.date b.second)) := by
  simp only [takeTime, h, if_true, hc]

theorem takeTime_set (h : b.accepted = true) (hc : s.scu.clock = .set d t) :
    takeTime b s = crossClock d t 1 b.date b.second s := by
  simp only [takeTime, h, if_true, hc]

/-- The code of the state left is 2 from STALE (log 12). -/
theorem takeTime_stale (h : b.accepted = true) (hc : s.scu.clock = .stale d t) :
    takeTime b s = crossClock d t 2 b.date b.second s := by
  simp only [takeTime, h, if_true, hc]

end

/-! ## The calendar (R122, R124, R176) -/

theorem monthLength_february (y : Nat) : monthLength y 2 = if y % 4 = 0 then 29 else 28 := by
  simp [monthLength, isLeap]

theorem monthLength_short (y : Nat) {m : Nat} (h : m ∈ [4, 6, 9, 11]) : monthLength y m = 30 := by
  simp only [List.mem_cons, List.not_mem_nil, or_false] at h
  rcases h with rfl | rfl | rfl | rfl <;> rfl

theorem monthLength_long (y : Nat) {m : Nat} (h : m ∈ [1, 3, 5, 7, 8, 10, 12]) : monthLength y m = 31 := by
  simp only [List.mem_cons, List.not_mem_nil, or_false] at h
  rcases h with rfl | rfl | rfl | rfl | rfl | rfl | rfl <;> rfl

theorem Date.next_inMonth {d : Date} (h : d.day < monthLength d.year d.month) : d.next = { d with day := d.day + 1 } :=
  if_pos h

theorem Date.next_monthEnd {d : Date} (h : d.day = monthLength d.year d.month) (hm : d.month < 12) :
    d.next = { d with month := d.month + 1, day := 1 } :=
  (if_neg h.not_lt).trans (if_pos hm)

theorem Date.next_yearEnd {d : Date} (h : d.day = monthLength d.year d.month) (hm : d.month = 12) :
    d.next = { year := d.year + 1, month := 1, day := 1 } :=
  (if_neg h.not_lt).trans (if_neg hm.not_lt)

theorem daysBefore_january (y : Nat) : daysBefore y 1 = 0 := rfl

theorem daysBefore_succ (y : Nat) {m : Nat} (h : 1 ≤ m) : daysBefore y (m + 1) = daysBefore y m + monthLength y m := by
  obtain ⟨k, rfl⟩ := Nat.exists_eq_add_of_le' h
  simp [daysBefore, List.range_succ]

/-- The days of a year. -/
theorem daysBefore_december (y : Nat) : daysBefore y 12 + monthLength y 12 = if y % 4 = 0 then 366 else 365 := by
  have hyear : daysBefore y 12 + monthLength y 12 = 337 + monthLength y 2 := by
    simp [daysBefore, List.range_succ, monthLength]
    omega
  rw [hyear, monthLength_february]
  split <;> rfl

/-- The count of days goes up by one from a date to the next (R176). -/
theorem Date.days_next {d : Date} (hy : 2000 ≤ d.year) (hm : 1 ≤ d.month) (hm' : d.month ≤ 12) (hd : 1 ≤ d.day)
    (hd' : d.day ≤ monthLength d.year d.month) : d.next.days = d.days + 1 := by
  rcases hd'.lt_or_eq with hday | hday
  · rw [Date.next_inMonth hday]
    simp only [Date.days]
    omega
  · rcases hm'.lt_or_eq with hmonth | hmonth
    · rw [Date.next_monthEnd hday hmonth]
      simp only [Date.days, daysBefore_succ _ hm]
      omega
    · rw [Date.next_yearEnd hday hmonth]
      have hyear := daysBefore_december d.year
      rw [hmonth] at hday
      simp only [Date.days, daysBefore_january, hmonth]
      split at hyear <;> omega

theorem timestamp_eq (d : Date) (n : Nat) : timestamp d n = BitVec.ofNat 32 (86400 * d.days + n) := by
  rw [timestamp, Nat.mul_comm]

/-- Settles O14: a frame passed or taken by RIF, then discarded or taken by SCU row by row of R124 (`takeTime`, `crossClock`);
the calendar month by month. -/
theorem timeFrameSetsTheStationClock : Obligations.TimeFrameSetsTheStationClock := by
  refine ⟨fun rx s hrun => ⟨fun h => ?passed, fun b hb hopen hrecv => ?taken⟩,
    fun b => ⟨rfl, rfl, joinWords_toNat .., rfl⟩, monthLength_february, fun y _ => monthLength_short y,
    fun y _ => monthLength_long y, fun d hy hm hm' hd hd' => ⟨Date.next_inMonth, Date.next_monthEnd, Date.next_yearEnd,
      Date.days_next hy hm hm' hd hd'⟩, rfl, timestamp_eq⟩
  case passed => rw [exec_timeFrame hrun, receiveTime_passed h]; rfl
  case taken =>
    intro u fits v set
    have hexec : exec (.timeFrame rx) s = .next (takeTime b u) := by
      rw [exec_timeFrame hrun, receiveTime_taken hb hopen hrecv]
    rw [hexec]
    refine ⟨fun hnot => ?_, fun hfits => ⟨fun hunset => ?_, fun d t hclock => ?crosses⟩⟩
    · rw [takeTime_discarded fun h => hnot (b.accepted_iff.1 h)]
    · exact congrArg Host.Outcome.next (takeTime_unset (b.accepted_iff.2 hfits) hunset)
    case crosses =>
      intro w
      obtain ⟨left, htake, hmoved⟩ : ∃ left, takeTime b u = crossClock d t left b.date b.second u
          ∧ clockMoved left b.date b.second u = w := by
        rcases hclock with hset | hstale
        · have hw : w = v := if_neg (by rw [hset]; exact Clock.noConfusion)
          exact ⟨1, takeTime_set (b.accepted_iff.2 hfits) hset, hw.symm⟩
        · have hw : w = set 2 := if_pos hstale
          exact ⟨2, takeTime_stale (b.accepted_iff.2 hfits) hstale, hw.symm⟩
      rw [htake]
      refine ⟨fun hsame => ?_, fun hforward => ?_, fun hback hnext => ?_⟩
      · rw [crossClock_same hsame, hmoved]
      · rw [crossClock_forward hforward, hmoved]; rfl
      · rw [crossClock_stepped hback hnext]; rfl

end Sys2Proof.Machine
end

section
/-! SUPPORT. The crossed span: which occurrences it holds, and in what order. -/
namespace Sys2Proof.Machine

/-! ## The entries due in one part of the span (R125) -/

/-- The entries with an occurrence in the part, each with its minute, in ascending number. -/
def entriesDue (u : Scu) (p : SpanPart) : List (Nat × EntryIx) :=
  allEntries.filterMap fun i => (u.table[i].filter (·.occursIn p)).map fun e => (e.minute, i)

/-- The occurrences of a part are its due entries sorted by minute, each on the part's date. -/
theorem occurrencesIn_eq (u : Scu) (p : SpanPart) : occurrencesIn u p
    = ((entriesDue u p).foldr insertByMinute []).map fun x => { entry := x.2, date := p.date } := by
  have h : ∀ i : EntryIx, (u.table[i].filter (·.occursIn p)).map (fun e => (e.minute, i))
      = match u.table[i] with
        | some e => if e.occursIn p then some (e.minute, i) else none
        | none => none := by
    intro i
    cases u.table[i] with
    | none => rfl
    | some e => by_cases he : e.occursIn p <;> simp [Option.filter, he]
  simp only [entriesDue, h]
  rfl

theorem mem_entriesDue {u : Scu} {p : SpanPart} {x : Nat × EntryIx} :
    x ∈ entriesDue u p ↔ ∃ e, u.table[x.2] = some e ∧ e.occursIn p = true ∧ e.minute = x.1 := by
  obtain ⟨n, i⟩ := x
  have hall : i ∈ allEntries := List.mem_finRange i
  simp only [entriesDue, List.mem_filterMap, Option.map_eq_some_iff, Option.filter_eq_some_iff, Prod.mk.injEq]
  constructor
  · rintro ⟨_, _, e, ⟨he, hoccurs⟩, hminute, rfl⟩
    exact ⟨e, he, hoccurs, hminute⟩
  · rintro ⟨e, he, hoccurs, hminute⟩
    exact ⟨i, hall, e, ⟨he, hoccurs⟩, hminute, rfl⟩

/-! ## Sorting by minute -/

/-- The minutes do not descend. -/
abbrev Ascending (l : List (Nat × EntryIx)) : Prop := l.Pairwise fun x y => x.1 ≤ y.1

theorem insertByMinute_ascending {l : List (Nat × EntryIx)} (h : Ascending l) (x : Nat × EntryIx) :
    Ascending (insertByMinute x l) := by
  induction l with
  | nil => exact List.pairwise_singleton ..
  | cons y ys ih =>
    obtain ⟨hy, hys⟩ := List.pairwise_cons.1 h
    rw [insertByMinute]
    split
    next hlt =>
      refine List.pairwise_cons.2 ⟨fun z hz => ?_, h⟩
      rcases List.mem_cons.1 hz with rfl | hz
      · exact hlt.le
      · exact hlt.le.trans (hy z hz)
    next hle =>
      refine List.pairwise_cons.2 ⟨fun z hz => ?_, ih hys⟩
      rcases mem_insertByMinute.1 hz with rfl | hz
      · exact Nat.le_of_not_lt hle
      · exact hy z hz

theorem foldr_insertByMinute_ascending (l : List (Nat × EntryIx)) : Ascending (l.foldr insertByMinute []) := by
  induction l with
  | nil => exact List.Pairwise.nil
  | cons x l ih => exact insertByMinute_ascending ih x

/-! ## The occurrences of a part and of the span -/

/-- The conditions of R125, one by one. -/
theorem mem_occurrencesIn {u : Scu} {p : SpanPart} {o : Occurrence} : o ∈ occurrencesIn u p
    ↔ ∃ e, u.table[o.entry] = some e ∧ e.enabled = true ∧ e.months.getLsbD (o.date.month - 1) = true
      ∧ e.lastFired ≠ some o.date ∧ o.date = p.date ∧ p.first ≤ 60 * e.minute ∧ 60 * e.minute ≤ p.last := by
  obtain ⟨i, d⟩ := o
  simp only [occurrencesIn_eq, List.mem_map, mem_foldr_insertByMinute, mem_entriesDue, Occurrence.mk.injEq,
    SchedEntry.occursIn, Bool.and_eq_true, bne_iff_ne, decide_eq_true_eq]
  constructor
  · rintro ⟨x, ⟨e, he, ⟨⟨⟨⟨henabled, hmonth⟩, hfired⟩, hfirst⟩, hlast⟩, _⟩, rfl, rfl⟩
    exact ⟨e, he, henabled, hmonth, hfired, rfl, hfirst, hlast⟩
  · rintro ⟨e, he, henabled, hmonth, hfired, rfl, hfirst, hlast⟩
    exact ⟨(e.minute, i), ⟨e, he, ⟨⟨⟨⟨henabled, hmonth⟩, hfired⟩, hfirst⟩, hlast⟩, rfl⟩, rfl, rfl⟩

theorem date_of_mem_occurrencesIn {u : Scu} {p : SpanPart} {o : Occurrence} (h : o ∈ occurrencesIn u p) :
    o.date = p.date := by
  obtain ⟨_, _, _, _, _, hdate, _⟩ := mem_occurrencesIn.1 h
  exact hdate

/-- x falls due no later in the day than y, by the minutes of the table. -/
def NoLaterInTheDay (u : Scu) (x y : Occurrence) : Prop :=
  ∀ a b, u.table[x.entry] = some a → u.table[y.entry] = some b → a.minute ≤ b.minute

theorem occurrencesIn_ordered (u : Scu) (p : SpanPart) : (occurrencesIn u p).Pairwise (NoLaterInTheDay u) := by
  rw [occurrencesIn_eq, List.pairwise_map]
  have minute : ∀ x ∈ (entriesDue u p).foldr insertByMinute [], ∀ a, u.table[x.2] = some a → a.minute = x.1 := by
    intro x hx a ha
    obtain ⟨e, he, _, hminute⟩ := mem_entriesDue.1 (mem_foldr_insertByMinute.1 hx)
    rw [← hminute, Option.some.inj (ha.symm.trans he)]
  refine (foldr_insertByMinute_ascending _).imp_of_mem fun {x y} hx hy hle a b ha hb => ?_
  rw [minute x hx a ha, minute y hy b hb]
  exact hle

theorem occurrences_sameDate (u : Scu) (d : Date) (t0 t1 : Nat) :
    occurrences u d t0 d t1 = occurrencesIn u { date := d, first := t0 + 1, last := t1 } := by
  simp [occurrences, spanParts]

theorem occurrences_nextDate (u : Scu) {d0 d1 : Date} (h : d1 ≠ d0) (t0 t1 : Nat) : occurrences u d0 t0 d1 t1
    = occurrencesIn u { date := d0, first := t0 + 1, last := 86399 }
      ++ occurrencesIn u { date := d1, first := 0, last := t1 } := by
  simp [occurrences, spanParts, h]

/-- Settles O15: membership part by part of the span, and each part sorted by minute, the part of d0 first. -/
theorem crossedSpanOccurrences : Obligations.CrossedSpanOccurrences := by
  refine ⟨fun u d0 d1 t0 t1 => ?_, fun _ => rfl, fun _ _ => rfl, fun _ _ _ _ => rfl⟩
  have ordered : ∀ {d first last}, (occurrencesIn u { date := d, first := first, last := last }).Pairwise fun x y =>
      (x.date = d0 ∧ y.date = d1 ∧ d1 ≠ d0) ∨ (x.date = y.date ∧ NoLaterInTheDay u x y) := fun {d first last} =>
    (occurrencesIn_ordered u _).imp_of_mem fun hx hy h =>
      .inr ⟨(date_of_mem_occurrencesIn hx).trans (date_of_mem_occurrencesIn hy).symm, h⟩
  by_cases hd : d1 = d0
  case pos =>
    subst hd
    rw [occurrences_sameDate]
    refine ⟨fun o => ?_, ordered⟩
    simp only [mem_occurrencesIn, if_true, ne_eq, not_true, false_and, or_false]
  case neg =>
    rw [occurrences_nextDate u hd]
    refine ⟨fun o => ?_, List.pairwise_append.2 ⟨ordered, ordered, fun x hx y hy => .inl ?_⟩⟩
    · simp only [List.mem_append, mem_occurrencesIn, ← exists_or, ← and_or_left, hd, if_false, ne_eq, not_false_eq_true,
        true_and, Nat.zero_le]
    · exact ⟨date_of_mem_occurrencesIn hx, date_of_mem_occurrencesIn hy, hd⟩

end Sys2Proof.Machine
end

section
/-! SUPPORT. SCHEDULE_HOLD: ON and OFF, each by the hold flag and the entry it meets. -/
namespace Sys2Proof.Machine

/-! ## SCHEDULE_HOLD (R133, R134) -/

section
variable {m : Mgmt} {s : State} {o : Occurrence}

theorem exec_scheduleHold (h : Serves .scheduleHold m s) :
    exec .scheduleHold s = .next (finishCommand m (scheduleHoldBody m s)) :=
  congrArg Host.Outcome.next (serve_served h scheduleHoldBody)

/-- Bit 0 of the command's word is ON (11.2). -/
theorem exec_scheduleHold_on (h : Serves .scheduleHold m s) (hon : (m.param 0).getLsbD 0 = true) :
    exec .scheduleHold s = .next (answered m .done [] (holdOn s)) := by
  rw [exec_scheduleHold h, scheduleHoldBody, if_pos hon]; rfl

/-- OFF takes bit 1 as the catch-up flag, and answers with the entry it ends (11.2; log 14). -/
theorem exec_scheduleHold_off (h : Serves .scheduleHold m s) (hoff : (m.param 0).getLsbD 0 = false) :
    exec .scheduleHold s
      = .next (answered m .done (holdOffNames s.scu) (holdOff ((m.param 0).getLsbD 1) s)) := by
  rw [exec_scheduleHold h, scheduleHoldBody, if_neg (Bool.eq_false_iff.1 hoff)]; rfl

theorem holdOn_held (h : s.scu.hold = true) : holdOn s = s := if_pos h

theorem holdOn_undeferred (h : s.scu.hold = false) (hd : s.scu.deferred = none) :
    holdOn s = s.setScu { s.scu with hold := true } := by
  simp [holdOn, h, hd]

theorem holdOn_deferred (h : s.scu.hold = false) (hd : s.scu.deferred = some o) :
    holdOn s = raiseDue o .missed .hold none
      (s.setScu { s.scu with hold := true, deferred := none, held := some o }) := by
  simp [holdOn, h, hd]

theorem holdOff_unheld (h : s.scu.hold = false) (c : Bool) : holdOff c s = s := if_neg (Bool.eq_false_iff.1 h)

theorem holdOff_nothingDue (h : s.scu.hold = true) (hd : s.scu.held = none) (c : Bool) :
    holdOff c s = s.setScu { s.scu with hold := false } := by
  simp [holdOff, h, hd]

/-- The entry held due is acted on with catch-up, and dropped without (R134). -/
theorem holdOff_heldDue (h : s.scu.hold = true) (hd : s.scu.held = some o) (c : Bool) :
    holdOff c s = if c then actOn o none (s.setScu { s.scu with hold := false, held := none })
      else raiseDue o .missed .dropped none (s.setScu { s.scu with hold := false, held := none }) := by
  simp [holdOff, h, hd]

theorem holdOffNames_none {u : Scu} (h : u.hold = false ∨ u.held = none) : holdOffNames u = [] := by
  rcases h with h | h <;> simp [holdOffNames, h]

theorem holdOffNames_heldDue {u : Scu} (h : u.hold = true) (hd : u.held = some o) :
    holdOffNames u = [word o.entry.val] := by
  simp [holdOffNames, h, hd]

end

/-- Settles O37: ON by the flag and the deferred entry (`holdOn`), OFF by the flag and the held-due entry (`holdOff`). -/
theorem scheduleHoldSetsAndEndsTheHold : Obligations.ScheduleHoldSetsAndEndsTheHold := by
  refine fun m s hs => ⟨fun hon => ?on, fun hoff => ?off⟩
  case on =>
    rw [exec_scheduleHold_on hs hon]
    refine ⟨fun h => ?_, fun h hd => ?_, fun o h hd => ?_⟩
    · rw [holdOn_held h]
    · rw [holdOn_undeferred h hd]
    · rw [holdOn_deferred h hd]
  case off =>
    rw [exec_scheduleHold_off hs hoff]
    refine ⟨fun h => ?_, fun h hd => ?_, fun o h hd => ?_⟩
    · rw [holdOffNames_none (.inl h), holdOff_unheld h]
    · rw [holdOffNames_none (.inr hd), holdOff_nothingDue h hd]
    · rw [holdOffNames_heldDue h hd, holdOff_heldDue h hd]
      refine ⟨fun hdrop => ?_, fun hcatch => ⟨?_, fun e v a he hr => actOn_listed he hr⟩⟩
      · rw [hdrop]; rfl
      · rw [hcatch]; rfl

end Sys2Proof.Machine
end

section
/-! SUPPORT. What each operation of the Load Unit leaves of the claim records and the Load Buffer, and that it keeps their laws. -/
namespace Sys2Proof.Machine

/-! ## The laws of loading (R137, R141) -/

/-! ### The Load Buffer and the staging areas -/

section
variable (u : Ldu) (x : Target)

theorem Ldu.buffered_eq_some {u : Ldu} {x : Target} {a : Nat} {ws : List Word} :
    u.buffered x = some (a, ws) ↔ u.buf = some { owner := x, start := a, words := ws } := by
  obtain ⟨claims, buf, s16, s17⟩ := u
  cases buf with
  | none => simp [Ldu.buffered]
  | some b =>
    obtain ⟨owner, start, words⟩ := b
    by_cases h : owner = x <;> simp [Ldu.buffered, h]

theorem Ldu.buffered_eq_none {u : Ldu} {x : Target} : u.buffered x = none ↔ ∀ b, u.buf = some b → b.owner ≠ x := by
  unfold Ldu.buffered
  cases u.buf <;> simp

theorem Ldu.buffered_of_owner {u : Ldu} {x : Target} {b : LoadBuffer} (hb : u.buf = some b) (ho : b.owner = x) :
    u.buffered x = some (b.start, b.words) := by
  subst ho
  exact Ldu.buffered_eq_some.2 hb

/-- Dropping the words of a target touches nothing but the buffer, and that only when the target owns it. -/
theorem Ldu.dropBuffer_eq :
    u.dropBuffer x = { u with buf := if u.buf.map (·.owner) = some x then none else u.buf } := by
  obtain ⟨claims, buf, s16, s17⟩ := u
  cases buf with
  | none => simp [Ldu.dropBuffer, Ldu.buffered]
  | some b => by_cases h : b.owner = x <;> simp [Ldu.dropBuffer, Ldu.buffered, h]

@[simp] theorem Ldu.dropBuffer_claims : (u.dropBuffer x).claims = u.claims := by rw [Ldu.dropBuffer_eq]
@[simp] theorem Ldu.dropBuffer_staging16 : (u.dropBuffer x).staging16 = u.staging16 := by rw [Ldu.dropBuffer_eq]
@[simp] theorem Ldu.dropBuffer_staging17 : (u.dropBuffer x).staging17 = u.staging17 := by rw [Ldu.dropBuffer_eq]
theorem Ldu.dropBuffer_buf : (u.dropBuffer x).buf = if u.buf.map (·.owner) = some x then none else u.buf := by
  rw [Ldu.dropBuffer_eq]

/-- The words left in the buffer are those of another target. -/
theorem Ldu.dropBuffer_left {u : Ldu} {x : Target} {b : LoadBuffer} (h : (u.dropBuffer x).buf = some b) :
    b.owner ≠ x ∧ u.buf = some b := by
  rw [Ldu.dropBuffer_buf] at h
  split at h
  · cases h
  · rename_i ho
    exact ⟨fun hx => ho (by rw [h, ← hx]; rfl), h⟩

@[simp] theorem Ldu.clearStaging_claims : (u.clearStaging x).claims = u.claims := by
  unfold Ldu.clearStaging; split_ifs <;> rfl
@[simp] theorem Ldu.clearStaging_buf : (u.clearStaging x).buf = u.buf := by
  unfold Ldu.clearStaging; split_ifs <;> rfl
theorem Ldu.clearStaging_staging16 : (u.clearStaging x).staging16 = if x.val = 16 then [] else u.staging16 := by
  unfold Ldu.clearStaging; split_ifs <;> rfl
theorem Ldu.clearStaging_staging17 : (u.clearStaging x).staging17 = if x.val = 17 then [] else u.staging17 := by
  unfold Ldu.clearStaging; split_ifs <;> first | rfl | omega

end

variable {s t : State} {x : Target} {c : Claim}

theorem onSlot_ldu (f : Pst → Slot → Pst) : (onSlot x f s).ldu = s.ldu := by
  unfold onSlot; split <;> rfl

/-! ### The laws after one target is changed -/

/-- The laws speak of the Load Unit alone. -/
theorem LoadLaw.congr (h : LoadLaw s) (hl : t.ldu = s.ldu) : LoadLaw t := by
  unfold LoadLaw
  rw [hl]
  exact h

/-- Target x takes claim record d, and the buffer holds lawful words of x or what it held of another target: the laws stand. -/
theorem LoadLaw.setTarget (h : LoadLaw s) {d : Option Claim} (hclaims : t.ldu.claims = setAt s.ldu.claims x d)
    (hbuf : ∀ b, t.ldu.buf = some b → (b.owner = x ∧ b.lawful d) ∨ (b.owner ≠ x ∧ s.ldu.buf = some b))
    (hd : ∀ c ∈ d, c.lawful (t.ldu.buffered x)) : LoadLaw t := by
  obtain ⟨hclaim, hbuffer⟩ := h
  refine ⟨fun y c hc => ?_, fun b hb => ?_⟩
  · rw [hclaims, setAt_get] at hc
    by_cases hy : y = x
    · subst hy
      rw [if_pos rfl] at hc
      exact hd c hc
    · rw [if_neg hy] at hc
      obtain ⟨hcom, hrun, hseg, hseg', hchecking⟩ := hclaim y c hc
      refine ⟨hcom, hrun, hseg, hseg', fun hk => Ldu.buffered_eq_none.2 fun b hb ho => ?_⟩
      rcases hbuf b hb with ⟨hx, _⟩ | ⟨_, hs⟩
      · exact hy (ho.symm.trans hx)
      · exact Ldu.buffered_eq_none.1 (hchecking hk) b hs ho
  · rw [hclaims, setAt_get]
    rcases hbuf b hb with ⟨hx, hl⟩ | ⟨hx, hs⟩
    · rwa [if_pos hx]
    · rw [if_neg hx]
      exact hbuffer b hs

/-- Where target x buffers nothing its record may be any whose offsets and segment length are lawful. -/
theorem LoadLaw.setUnbuffered (h : LoadLaw s) (hclaims : t.ldu.claims = s.ldu.claims)
    (hbuf : ∀ b, t.ldu.buf = some b → b.owner ≠ x ∧ s.ldu.buf = some b) {d : Option Claim}
    (hd : ∀ c ∈ d, c.committed ≤ c.length ∧ c.running ≤ c.length ∧ 1 ≤ c.segment ∧ c.segment ≤ 64) :
    LoadLaw (t.setClaim x d) := by
  refine h.setTarget (congrArg (setAt · x d) hclaims) (fun b hb => .inr (hbuf b hb)) fun c hc => ?_
  obtain ⟨hcom, hrun, hseg, hseg'⟩ := hd c hc
  exact ⟨hcom, hrun, hseg, hseg', fun _ => Ldu.buffered_eq_none.2 fun b hb => (hbuf b hb).1⟩

/-- The words buffered of a LOADING target are fewer than its segment length and end at its running offset. -/
theorem LoadLaw.held (h : LoadLaw s) (hc : s.ldu.claims[x] = some c) {a : Nat} {ws : List Word}
    (hb : s.ldu.buffered x = some (a, ws)) : ws ≠ [] ∧ ws.length < c.segment ∧ c.running = a + ws.length := by
  obtain ⟨hne, d, hd, _, hlen, hrun⟩ := h.2 _ (Ldu.buffered_eq_some.1 hb)
  obtain rfl : d = c := Option.some.inj (hd.symm.trans hc)
  exact ⟨hne, hlen, hrun⟩

/-! ### CLAIM and abandonment -/

theorem claimRegion_ldu (b l : Nat) (u : BitVec 3) (s : State) :
    (claimRegion x b l u s).ldu.claims = s.ldu.claims ∧ (claimRegion x b l u s).ldu.buf = s.ldu.buf := by
  unfold claimRegion
  split <;> simp

theorem takeClaim_loadLaw (h : LoadLaw s) (b l : Nat) {n : Nat} (hn : 1 ≤ n) (hn' : n ≤ 64) (u : BitVec 3) :
    LoadLaw (takeClaim x b l n u s) := by
  obtain ⟨hclaims, hbuf⟩ := claimRegion_ldu (x := x) b l u (s.setLdu (s.ldu.dropBuffer x))
  refine h.setUnbuffered (hclaims.trans (Ldu.dropBuffer_claims ..)) (fun a ha => Ldu.dropBuffer_left (hbuf ▸ ha))
    fun c hc => ?_
  cases hc
  exact ⟨Nat.zero_le _, Nat.zero_le _, hn, hn'⟩

theorem abandon_loadLaw (h : LoadLaw s) (x : Target) : LoadLaw (abandon x s) := by
  refine h.setUnbuffered ?_ (fun b hb => Ldu.dropBuffer_left ?_) fun c hc => nomatch hc
  · simp only [onSlot_ldu, State.setLdu_ldu, Ldu.clearStaging_claims, Ldu.dropBuffer_claims]
  · simpa only [onSlot_ldu, State.setLdu_ldu, Ldu.clearStaging_buf] using hb

/-! ### LOAD -/

/-- The run of a LOAD once its held words, with the word that makes them a segment of n, have gone to state u. -/
def LoadRun.wrote (r : LoadRun) (n : Nat) (u : State) : LoadRun :=
  { state := u, start := r.start + n, held := [], committed := max r.committed (r.start + n), segments := r.segments + 1,
    failed := none }

theorem appendWords_room {n : Nat} {w : Word} {r : LoadRun} (h : r.held.length + 1 ≠ n) (ws : List Word) :
    appendWords x n (w :: ws) r = appendWords x n ws { r with held := r.held ++ [w] } := by
  rw [appendWords, if_neg h]

theorem appendWords_wrote {n : Nat} {w : Word} {r : LoadRun} {u : State} (h : r.held.length + 1 = n)
    (hu : writeSegment x r.start (r.held ++ [w]) r.state = .ok u) (ws : List Word) :
    appendWords x n (w :: ws) r = appendWords x n ws (r.wrote n u) := by
  rw [appendWords, if_pos h, hu]; rfl

theorem appendWords_failed {n : Nat} {w : Word} {r : LoadRun} {o : OutcomeCode} (h : r.held.length + 1 = n)
    (ho : writeSegment x r.start (r.held ++ [w]) r.state = .error o) (ws : List Word) :
    appendWords x n (w :: ws) r = { r with start := r.committed, held := [], failed := some o } := by
  rw [appendWords, if_pos h, ho]

/-- The offsets of a LOAD: what is held ends at the offset reached, is less than a segment, and is nothing once a segment was
not taken. -/
theorem appendWords_offsets {n len : Nat} (ws : List Word) {r : LoadRun} (hheld : r.held.length < n) (hok : r.failed = none)
    (hend : r.start + r.held.length + ws.length ≤ len) (hcom : r.committed ≤ len) {q : LoadRun}
    (hq : appendWords x n ws r = q) :
    q.committed ≤ len ∧ q.held.length < n ∧ (q.failed = none → q.start + q.held.length = r.start + r.held.length + ws.length)
      ∧ (q.failed ≠ none → q.held = []) := by
  induction ws generalizing r with
  | nil =>
    subst hq
    exact ⟨hcom, hheld, fun _ => rfl, fun hf => absurd hok hf⟩
  | cons w ws ih =>
    rw [List.length_cons] at hend ⊢
    by_cases hfull : r.held.length + 1 = n
    case pos =>
      cases hw : writeSegment x r.start (r.held ++ [w]) r.state with
      | ok u =>
        rw [appendWords_wrote hfull hw] at hq
        obtain ⟨hcom', hheld', hstart, hfail⟩ := ih (r := r.wrote n u) (Nat.lt_of_le_of_lt (Nat.zero_le _) hheld) rfl
          (by simp only [LoadRun.wrote, List.length_nil]; omega) (by simp only [LoadRun.wrote]; omega) hq
        refine ⟨hcom', hheld', fun hf => (hstart hf).trans ?_, hfail⟩
        simp only [LoadRun.wrote, List.length_nil]
        omega
      | error o =>
        rw [appendWords_failed hfull hw] at hq
        subst hq
        exact ⟨hcom, Nat.lt_of_le_of_lt (Nat.zero_le _) hheld, fun hf => (nomatch hf), fun _ => rfl⟩
    case neg =>
      rw [appendWords_room hfull] at hq
      have hlen : (r.held ++ [w]).length = r.held.length + 1 := List.length_append ..
      obtain ⟨hcom', hheld', hstart, hfail⟩ := ih (r := { r with held := r.held ++ [w] }) (by simp only [hlen]; omega) hok
        (by simp only [hlen]; omega) hcom hq
      refine ⟨hcom', hheld', fun hf => (hstart hf).trans ?_, hfail⟩
      simp only [hlen]
      omega

/-- A LOAD begins with the words buffered, which end at the running offset. -/
theorem loadStart_offsets (h : LoadLaw s) (hc : s.ldu.claims[x] = some c) :
    (loadStart x c s).held.length < c.segment
      ∧ (loadStart x c s).start + (loadStart x c s).held.length = c.running := by
  obtain ⟨_, _, hseg, _⟩ := h.1 x c hc
  unfold loadStart
  cases hb : s.ldu.buffered x with
  | none => exact ⟨hseg, rfl⟩
  | some p =>
    obtain ⟨_, hlen, hrun⟩ := h.held hc hb
    exact ⟨hlen, hrun.symm⟩

theorem bufferOf_eq_some {a : Nat} {ws : List Word} {b : LoadBuffer} :
    bufferOf x a ws = some b ↔ ws ≠ [] ∧ b = { owner := x, start := a, words := ws } := by
  unfold bufferOf
  split <;> simp_all [eq_comm]

theorem takeLoad_loadLaw (h : LoadLaw s) (hc : s.ldu.claims[x] = some c) {ws : List Word}
    (hfit : c.running + ws.length ≤ c.length) : LoadLaw (takeLoad x c ws s).1 := by
  obtain ⟨hcom, hrun, hseg, hseg', _⟩ := h.1 x c hc
  obtain ⟨hheld, hstart⟩ := loadStart_offsets h hc
  have hoff := appendWords_offsets (x := x) (len := c.length) ws hheld rfl (by omega) hcom rfl
  have hclaims := (appendWords_written (x := x) c.segment ws (loadStart x c s)).claims
  unfold takeLoad
  generalize appendWords x c.segment ws (loadStart x c s) = q at hoff hclaims
  obtain ⟨hcom', hheld', hend, hfail⟩ := hoff
  refine h.setTarget (x := x) (d := some (c.afterLoad q ws.length)) (congrArg (setAt · x _) hclaims) (fun b hb => ?_)
    fun d hd => ?_
  · obtain ⟨hne, rfl⟩ := bufferOf_eq_some.1 hb
    have hok : q.failed = none := by
      by_contra hf
      exact hne (hfail hf)
    refine .inl ⟨rfl, hne, _, rfl, rfl, hheld', ?_⟩
    simp only [Claim.afterLoad, hok]
    exact (hstart ▸ hend hok).symm
  · cases hd
    refine ⟨hcom', ?_, hseg, hseg', fun hk => nomatch hk⟩
    simp only [Claim.afterLoad]
    split
    · exact hcom'
    · exact hfit

/-! ### COMMIT and FINISH -/

/-- After a flush the buffer holds no words of the target, and the claim's offsets stay within the region. -/
theorem flush_left (h : LoadLaw s) (hc : s.ldu.claims[x] = some c) {u : State} {d : Claim} {w : Bool}
    (hf : flush x c s = .ok (u, d, w)) :
    u.ldu.claims = s.ldu.claims ∧ (∀ b, u.ldu.buf = some b → b.owner ≠ x ∧ s.ldu.buf = some b)
      ∧ d.committed ≤ d.length ∧ d.running = c.running ∧ d.length = c.length ∧ d.segment = c.segment := by
  obtain ⟨hcom, hrun, _⟩ := h.1 x c hc
  have hclaims := (flush_ok hf).1.claims
  unfold flush at hf
  split at hf
  · rename_i hb
    cases hf
    exact ⟨hclaims, fun b hs => ⟨Ldu.buffered_eq_none.1 hb b hs, hs⟩, hcom, rfl, rfl, rfl⟩
  · rename_i a ws hb
    obtain ⟨_, _, hend⟩ := h.held hc hb
    split at hf <;> cases hf
    exact ⟨hclaims, nofun, Nat.max_le.2 ⟨hcom, hend ▸ hrun⟩, rfl, rfl, rfl⟩

theorem flush_failed_loadLaw (h : LoadLaw s) (hc : s.ldu.claims[x] = some c) {r : State × Answer}
    (hr : flush x c s = .error r) : LoadLaw r.1 := by
  obtain ⟨hcom, _, hseg, hseg', _⟩ := h.1 x c hc
  unfold flush at hr
  split at hr
  · cases hr
  · split at hr <;> cases hr
    refine h.setUnbuffered (t := s.setLdu { s.ldu with buf := none }) rfl nofun fun d hd => ?_
    cases hd
    exact ⟨hcom, hcom, hseg, hseg'⟩

theorem takeCommit_loadLaw (h : LoadLaw s) (hc : s.ldu.claims[x] = some c) {resume : Option Nat}
    (hresume : resumeTooFar resume (committedAfter s.ldu x c) = false) : LoadLaw (takeCommit x c resume s).1 := by
  obtain ⟨hcom, hrun, hseg, hseg', _⟩ := h.1 x c hc
  have hafter : committedAfter s.ldu x c ≤ c.length := by
    unfold committedAfter
    split
    · obtain ⟨_, _, hend⟩ := h.held hc ‹_›
      omega
    · exact hcom
  have hrunning : resume.getD c.running ≤ c.length := by
    cases resume with
    | none => exact hrun
    | some n => exact (not_lt.1 (of_decide_eq_false hresume)).trans hafter
  unfold takeCommit
  split
  · exact flush_failed_loadLaw h hc ‹_›
  · obtain ⟨hclaims, hbuf, hcom', hrun', hlen, hseg''⟩ := flush_left h hc ‹_›
    refine h.setUnbuffered hclaims hbuf fun d hd => ?_
    cases hd
    simp only [hrun', hseg''] at *
    exact ⟨hcom', hlen ▸ hrunning, hseg, hseg'⟩

theorem takeFinish_loadLaw (h : LoadLaw s) (hc : s.ldu.claims[x] = some c) (e : Word) : LoadLaw (takeFinish x c e s).1 := by
  obtain ⟨_, hrun, hseg, hseg', _⟩ := h.1 x c hc
  unfold takeFinish
  split
  · exact flush_failed_loadLaw h hc ‹_›
  · obtain ⟨hclaims, hbuf, hcom', hrun', hlen, hseg''⟩ := flush_left h hc ‹_›
    refine h.setUnbuffered (by rw [onSlot_ldu, hclaims]) (by rwa [onSlot_ldu]) fun d hd => ?_
    cases hd
    simp only [hrun', hseg''] at *
    exact ⟨hcom', hlen ▸ hrun, hseg, hseg'⟩

/-! ### The check -/

theorem makeLive_ldu (x : Target) (v : Word) (s : State) :
    (makeLive x v s).ldu.claims = s.ldu.claims ∧ (makeLive x v s).ldu.buf = s.ldu.buf := by
  unfold makeLive
  split
  · rw [onSlot_ldu]
    exact ⟨rfl, rfl⟩
  · simp only [State.setLdu_ldu, Ldu.clearStaging_claims, Ldu.clearStaging_buf]
    split
    · rw [(replaceContactors_keeps ..).ldu]
      exact ⟨rfl, rfl⟩
    · rw [(replaceSchedule_keeps ..).ldu]
      exact ⟨rfl, rfl⟩

theorem completeCheck_loadLaw (h : LoadLaw s) (x : Target) : LoadLaw (completeCheck x s) := by
  unfold completeCheck
  split
  · exact h
  rename_i c hc
  obtain ⟨hcom, _, hseg, hseg', hchecking⟩ := h.1 x c hc
  split
  · exact h
  rename_i hp
  have hfree := Ldu.buffered_eq_none.1 (hchecking (by rw [Claim.isChecking, hp]))
  refine LoadLaw.congr (s := actOnCheck x c _ _ s) ?_ rfl
  unfold actOnCheck
  split
  · obtain ⟨hclaims, hbuf⟩ := makeLive_ldu x (computedCheck s x c.length) s
    exact h.setUnbuffered hclaims (fun b hb => ⟨hfree b (hbuf ▸ hb), hbuf ▸ hb⟩) nofun
  · refine h.setUnbuffered (by rw [onSlot_ldu]) (fun b hb => ?_) fun d hd => ?_
    · rw [onSlot_ldu] at hb
      exact ⟨hfree b hb, hb⟩
    · cases hd
      exact ⟨hcom, hcom, hseg, hseg'⟩

theorem lapse_loadLaw (h : LoadLaw s) (x : Target) : LoadLaw (lapse x s) := by
  unfold lapse
  split
  · exact h
  · split
    · exact h
    · exact (abandon_loadLaw h x).congr rfl

/-! ### Commands of the Load Unit -/

theorem claimBody_loadLaw (h : LoadLaw s) {m : Mgmt} (hm : precheck .claim m = none) : LoadLaw (claimBody m s).1 := by
  have hseg := precheck_ranges hm (3, m.num 3 ≤ 64) (by simp [Cmd.ranges])
  have hlong : segmentLength (m.num 3) ≤ 64 ∧ 1 ≤ segmentLength (m.num 3) := by
    have : m.num 3 ≤ 64 := of_decide_eq_true hseg
    unfold segmentLength
    split <;> omega
  unfold claimBody
  split
  · exact h
  · exact takeClaim_loadLaw h _ _ hlong.2 hlong.1 _

/-- A LOAD that no check refuses fits the region from the running offset on (R142). -/
theorem loadRefusal_none {a n : Nat} (h : loadRefusal x a n c s = none) :
    otherOwner s.ldu x = none ∧ a = c.running ∧ a + n ≤ c.length := by
  unfold loadRefusal at h
  split at h
  · cases h
  · rename_i ho
    split_ifs at h with hrun hlen
    exact ⟨ho, not_not.1 hrun, not_lt.1 hlen⟩

theorem loadBody_loadLaw (h : LoadLaw s) (m : Mgmt) : LoadLaw (loadBody m s).1 := by
  unfold loadBody
  split
  · exact h
  · rename_i hown
    split
    · exact h
    · rename_i hr
      obtain ⟨_, hrun, hfit⟩ := loadRefusal_none hr
      exact takeLoad_loadLaw h (ownLoading_ok hown).1 (hrun ▸ hfit)

theorem commitBody_loadLaw (h : LoadLaw s) (m : Mgmt) : LoadLaw (commitBody m s).1 := by
  unfold commitBody
  split
  · exact h
  · rename_i hown
    split
    · exact h
    · exact takeCommit_loadLaw h (ownLoading_ok hown).1 (Bool.eq_false_iff.2 ‹_›)

theorem finishBody_loadLaw (h : LoadLaw s) (m : Mgmt) : LoadLaw (finishBody m s).1 := by
  unfold finishBody
  split
  · exact h
  · rename_i hown
    split
    · exact h
    · exact takeFinish_loadLaw h (ownLoading_ok hown).1 _

theorem unclaimBody_loadLaw (h : LoadLaw s) (m : Mgmt) : LoadLaw (unclaimBody m s).1 := by
  unfold unclaimBody
  split
  · exact h
  · exact abandon_loadLaw h _

/-! ### Every step -/

theorem Claim.tick_isChecking (c : Claim) : c.tick.isChecking = c.isChecking := by
  obtain ⟨p, _⟩ := c
  cases p <;> rfl

/-- Time moves the timers of a claim record alone. -/
theorem tickMs_loadLaw (h : LoadLaw s) : LoadLaw (tickMs s) := by
  obtain ⟨hclaim, hbuffer⟩ := h
  have hclaims : ∀ y : Target, (tickMs s).ldu.claims[y] = s.ldu.claims[y].map Claim.tick := fun y => map_get ..
  refine ⟨fun y d hd => ?_, fun b hb => ?_⟩
  · rw [hclaims, Option.mem_def, Option.map_eq_some_iff] at hd
    obtain ⟨c, hc, rfl⟩ := hd
    obtain ⟨hcom, hrun, hseg, hseg', hchecking⟩ := hclaim y c hc
    exact ⟨hcom, hrun, hseg, hseg', fun hk => hchecking (c.tick_isChecking.symm.trans hk)⟩
  · obtain ⟨hne, c, hc, hloading, hlen, hrun⟩ := hbuffer b hb
    refine ⟨hne, c.tick, ?_, c.tick_isChecking.trans hloading, hlen, hrun⟩
    rw [hclaims, show s.ldu.claims[b.owner] = some c from hc]
    rfl

theorem idle_loadLaw (h : LoadLaw s) : LoadLaw (idle s) := by
  have htick : LoadLaw (tick s) := by
    unfold tick
    dsimp only
    split
    · exact tickMs_loadLaw (s := tickQuarter s) h
    · exact h
  unfold idle
  split
  · split
    · exact h
    · split
      · exact htick
      · exact h
  · exact h

theorem whileRunning_loadLaw {f : State → State} (h : LoadLaw s) (hf : LoadLaw (f s)) : LoadLaw (whileRunning f s) := by
  unfold whileRunning
  split
  · exact hf
  · exact h

theorem whileCounting_loadLaw {f : State → State} (h : LoadLaw s) (hf : LoadLaw (f s)) : LoadLaw (whileCounting f s) := by
  unfold whileCounting
  split
  · exact hf
  · exact h

/-- A command of CMU keeps the laws when its block does on every frame that passes the tests (R166). -/
theorem serve_loadLaw (h : LoadLaw s) {k : Cmd} {body : Mgmt → State → State × Answer}
    (hb : ∀ m, precheck k m = none → LoadLaw (body m s).1) : LoadLaw (whileRunning (serve k body) s) := by
  refine whileRunning_loadLaw h ?_
  unfold serve
  split
  · exact h
  · rename_i m _ _
    split
    · unfold runCommand
      split
      · exact h
      · exact hb m ‹_›
    · exact h

theorem serveUnknown_loadLaw (h : LoadLaw s) : LoadLaw (serveUnknown s) := by
  unfold serveUnknown
  split
  · exact h
  · split <;> exact h

/-- With no claim and the buffer free the laws stand. -/
theorem loadLaw_reset (h : t.ldu = Ldu.reset) : LoadLaw t := by
  refine ⟨fun x c hc => ?_, fun b hb => ?_⟩
  · rw [h] at hc
    exact nomatch (replicate_get none x).symm.trans hc
  · rw [h] at hb
    cases hb

/-- Every command keeps the laws of loading. -/
theorem exec_loadLaw (i : Instr) (huse : ∀ k : Slot, s.txe.inUse k = true → s.pst.isValid k = true) (h : LoadLaw s) :
    ∃ t, exec i s = .next t ∧ LoadLaw t := by
  have u := usesValid_self.2 huse
  have running : ∀ {f : State → State}, UsesValid s (f s) → LoadLaw (whileRunning f s) := fun hf =>
    whileRunning_loadLaw h (h.congr hf.ldu)
  have counting : ∀ {f : State → State}, UsesValid s (f s) → LoadLaw (whileCounting f s) := fun hf =>
    whileCounting_loadLaw h (h.congr hf.ldu)
  have served : ∀ {k : Cmd} {body : Mgmt → State → State × Answer}, (∀ m, UsesValid s (body m s).1) →
      LoadLaw (whileRunning (serve k body) s) := fun hb => serve_loadLaw h fun m _ => h.congr (hb m).ldu
  cases i with
  | powerOnReset | resetAsserted => exact ⟨_, rfl, loadLaw_reset rfl⟩
  | refclkStopped | refclkReturned => exact ⟨_, rfl, h⟩
  | claim => exact ⟨_, rfl, serve_loadLaw h fun _ hm => claimBody_loadLaw h hm⟩
  | load => exact ⟨_, rfl, serve_loadLaw h fun m _ => loadBody_loadLaw h m⟩
  | commit => exact ⟨_, rfl, serve_loadLaw h fun m _ => commitBody_loadLaw h m⟩
  | finish => exact ⟨_, rfl, serve_loadLaw h fun m _ => finishBody_loadLaw h m⟩
  | unclaim => exact ⟨_, rfl, serve_loadLaw h fun m _ => unclaimBody_loadLaw h m⟩
  | restart => exact ⟨_, rfl, serve_loadLaw h fun _ _ => loadLaw_reset rfl⟩
  | checkCompletion x => exact ⟨_, rfl, whileRunning_loadLaw h (completeCheck_loadLaw h x)⟩
  | claimLapse x => exact ⟨_, rfl, whileCounting_loadLaw h (lapse_loadLaw h x)⟩
  | unknownCommand => exact ⟨_, rfl, whileRunning_loadLaw h (serveUnknown_loadLaw h)⟩
  | status | read => exact ⟨_, rfl, served fun _ => u⟩
  | ackFault => exact ⟨_, rfl, served fun _ => u.setMon _⟩
  | reporting => exact ⟨_, rfl, served fun _ => u.setRif _⟩
  | clearOverflow => exact ⟨_, rfl, served fun _ => u.setCmu _⟩
  | switch => exact ⟨_, rfl, served u.switchBody⟩
  | withdraw => exact ⟨_, rfl, served u.withdrawBody⟩
  | go => exact ⟨_, rfl, served u.goBody⟩
  | continueTx => exact ⟨_, rfl, served u.continueBody⟩
  | retreat => exact ⟨_, rfl, served u.retreatBody⟩
  | mute => exact ⟨_, rfl, served fun _ => (u.withdraw .mute).muteArray _⟩
  | move => exact ⟨_, rfl, served u.moveBody⟩
  | trimClear => exact ⟨_, rfl, served u.trimClearBody⟩
  | scheduleHold => exact ⟨_, rfl, served u.scheduleHoldBody⟩
  | sampleFrame rx => exact ⟨_, rfl, running (u.receiveSample rx)⟩
  | mgmtFrame rx => exact ⟨_, rfl, running (u.receiveMgmt rx)⟩
  | timeFrame rx => exact ⟨_, rfl, running (u.receiveTime rx)⟩
  | releaseFrame rx => exact ⟨_, rfl, running (u.receiveRelease rx)⟩
  | emptyFrame rx => exact ⟨_, rfl, running (u.receiveEmpty rx)⟩
  | monitorRecord rx => exact ⟨_, rfl, running (u.takeRecord rx)⟩
  | interlockOpening => exact ⟨_, rfl, h.congr u.ilkLineOpen.ldu⟩
  | interlockLineClosed | rdyLineChange => exact ⟨_, rfl, h.congr (u.setDsy _).ldu⟩
  | auxInputChange => exact ⟨_, rfl, h.congr (u.setCtu _).ldu⟩
  | missedFrame => exact ⟨_, rfl, counting u.missFrame⟩
  | localPaceFrame => exact ⟨_, rfl, counting u.localFrame⟩
  | lossTimerExpiry => exact ⟨_, rfl, counting u.lossExpiry⟩
  | interlockQualified => exact ⟨_, rfl, counting u.ilkQualified⟩
  | cabinetDebounceExpiry a => exact ⟨_, rfl, counting (u.rdyDebounced a)⟩
  | auxDebounceExpiry a b => exact ⟨_, rfl, counting (u.auxDebounced a b)⟩
  | travelLimitExpiry a => exact ⟨_, rfl, counting (u.travelExpired a)⟩
  | settleTimerExpiry => exact ⟨_, rfl, counting u.settleExpired⟩
  | gateTimerExpiry => exact ⟨_, rfl, counting u.gateExpired⟩
  | absenceTimerExpiry => exact ⟨_, rfl, counting u.absenceExpiry⟩
  | holdOffExpiry => exact ⟨_, rfl, counting (u.setMon _)⟩
  | staleTimerExpiry => exact ⟨_, rfl, counting u.staleExpiry⟩

/-- Settles O58: the operations that load nothing leave the Load Unit alone, and each of its own changes one target, whose
record and buffered words it leaves lawful (`LoadLaw.setTarget`). -/
theorem stepsKeepTheLoadLaw : Obligations.StepsKeepTheLoadLaw := by
  intro s t hstep huse h
  unfold step at hstep
  split at hstep
  next =>
    cases hstep
    exact idle_loadLaw h
  next i rest _ =>
    obtain ⟨u, hu, hlaw⟩ := exec_loadLaw (s := s.setPending rest) i huse.1 h
    rw [hu] at hstep
    cases hstep
    exact hlaw

end Sys2Proof.Machine
end

section
/-! SUPPORT. What the words of a target's region read after a segment is written, a flush and a LOAD. -/
namespace Sys2Proof.Machine

/-! ## Words of a region (R1, R136) -/

variable {s t u : State} {x y : Target} {c : Claim}

/-! ### Targets -/

theorem targetSlot_slotTarget (k : Slot) : targetSlot (slotTarget k) = some k := dif_pos k.isLt

theorem targetSlot_table (h : 16 ≤ x.val) : targetSlot x = none := dif_neg (by omega)

/-- A target that is no slot is one of the two tables. -/
theorem table_target (h : ∀ k, slotTarget k ≠ x) : x.val = 16 ∨ x.val = 17 := by
  have h16 : ¬ x.val < 16 := fun hx => h ⟨x.val, hx⟩ rfl
  omega

theorem regionWord_slot (s : State) (k : Slot) (i : Nat) : regionWord s (slotTarget k) i = s.pst.slotWord k i := by
  rw [regionWord, targetSlot_slotTarget]

theorem regionWord_table (s : State) (h : 16 ≤ x.val) (i : Nat) :
    regionWord s x i = if x.val = 16 then s.ldu.staging16.read i else s.ldu.staging17.read i := by
  rw [regionWord, targetSlot_table h]

/-- The words of the regions stand in the Pattern Store and the staging areas. -/
theorem regionWord_congr (hp : t.pst = s.pst) (h16 : t.ldu.staging16 = s.ldu.staging16)
    (h17 : t.ldu.staging17 = s.ldu.staging17) (x : Target) (i : Nat) : regionWord t x i = regionWord s x i := by
  simp only [regionWord, hp, h16, h17]

/-! ### A written segment (R8, R143) -/

/-- t is s with the words ws written from offset a of the region of target x: no other word of any region, and no other field of
the Pattern Store or of the other blocks, is changed. -/
structure SegmentWritten (x : Target) (a : Nat) (ws : List Word) (s t : State) : Prop where
  rest   : t = (s.setPst { s.pst with store := t.pst.store }).setLdu t.ldu
  claims : t.ldu.claims = s.ldu.claims
  buf    : t.ldu.buf = s.ldu.buf
  own    : ∀ i, regionWord t x i = if a ≤ i ∧ i < a + ws.length then ws.getD (i - a) 0 else regionWord s x i
  others : ∀ y i, y ≠ x → regionWord t y i = regionWord s y i
  law    : StoreLaw s → StoreLaw t

theorem SegmentWritten.nil (x : Target) (a : Nat) (s : State) : SegmentWritten x a [] s s :=
  ⟨rfl, rfl, rfl, fun i => (if_neg (by simp)).symm, fun _ _ _ => rfl, id⟩

theorem SegmentWritten.dir {a : Nat} {ws : List Word} (h : SegmentWritten x a ws s t) : t.pst.dir = s.pst.dir := by
  rw [h.rest]; rfl

theorem SegmentWritten.written {a : Nat} {ws : List Word} (h : SegmentWritten x a ws s t) : Written s t :=
  ⟨by rw [h.rest]; rfl, h.dir, h.claims, h.law⟩

/-- A segment and one that follows it make one segment. -/
theorem SegmentWritten.append {a : Nat} {ws vs : List Word} (h : SegmentWritten x a ws s t)
    (k : SegmentWritten x (a + ws.length) vs t u) : SegmentWritten x a (ws ++ vs) s u := by
  refine ⟨?_, k.claims.trans h.claims, k.buf.trans h.buf, fun i => ?_,
    fun y i hy => (k.others y i hy).trans (h.others y i hy), fun hs => k.law (h.law hs)⟩
  · have hk := k.rest
    rw [h.rest] at hk
    exact hk
  · rw [k.own, h.own, List.length_append]
    by_cases h2 : a + ws.length ≤ i ∧ i < a + ws.length + vs.length
    · rw [if_pos h2, if_pos (by omega), List.getD_append_right _ _ _ _ (by omega), Nat.sub_sub]
    · rw [if_neg h2]
      by_cases h1 : a ≤ i ∧ i < a + ws.length
      · rw [if_pos h1, if_pos (by omega), List.getD_append _ _ _ _ (by omega)]
      · rw [if_neg h1, if_neg (by omega)]

/-- A slot's words are those its region has in store memory. -/
theorem slotWord_stored {p : Pst} {m : Mem} {j : Slot} {i : Nat}
    (h : ∀ r ∈ p.dir[j].region, i < r.2 → m.read (r.1 + i) = p.store.read (r.1 + i)) :
    Pst.slotWord { p with store := m } j i = p.slotWord j i := by
  cases hr : p.dir[j].region with
  | none => rw [slotWord_empty hr, slotWord_empty (p := { p with store := m }) hr]
  | some r =>
    rw [slotWord_region (b := r.1) (l := r.2) hr, slotWord_region (p := { p with store := m }) (b := r.1) (l := r.2) hr]
    split
    · exact h r hr ‹_›
    · rfl

/-- Words written inside the region of a slot, in store memory. -/
theorem slotSegment_written {k : Slot} {b l a : Nat} {ws : List Word} (h : StoreLaw s)
    (hk : s.pst.dir[k].region = some (b, l)) (hfit : a + ws.length ≤ l)
    (hw : writeSegment (slotTarget k) a ws s = .ok (s.setPst { s.pst with store := s.pst.store.writeAll (b + a) ws })) :
    SegmentWritten (slotTarget k) a ws s (s.setPst { s.pst with store := s.pst.store.writeAll (b + a) ws }) := by
  have hlaw := (writeSegment_written hw).law
  obtain ⟨_, hapart, _, hwf, _⟩ := h
  refine ⟨rfl, rfl, rfl, fun i => ?_, fun y i hy => ?_, hlaw⟩
  · rw [regionWord_slot, regionWord_slot, slotWord_region hk, State.setPst_pst,
      slotWord_region (p := { s.pst with store := s.pst.store.writeAll (b + a) ws }) hk]
    simp only [Mem.read_writeAll hwf]
    by_cases hin : a ≤ i ∧ i < a + ws.length
    · rw [if_pos (by omega), if_pos (by omega), if_pos hin, Nat.add_sub_add_left]
    · rw [if_neg hin, if_neg (show ¬ (b + a ≤ b + i ∧ b + i < b + a + ws.length) by omega)]
  · rcases targetSlot_cases y with ⟨j, rfl, _⟩ | ⟨_, hj⟩
    · have hjk : j ≠ k := fun e => hy (congrArg slotTarget e)
      rw [regionWord_slot, regionWord_slot]
      refine slotWord_stored fun r hr hi => ?_
      have hr' : apart r (b, l) := hapart j k hjk r hr _ hk
      rw [Mem.read_writeAll hwf, if_neg (by simp only [apart] at hr'; omega)]
    · have h16 := table_target hj
      rw [regionWord_table _ (by omega), regionWord_table _ (by omega)]
      rfl

/-- Words written into a staging area. -/
theorem tableSegment_written {a : Nat} {ws : List Word} (h : StoreLaw s) (hx : 16 ≤ x.val)
    (hw : writeSegment x a ws s = .ok t) : SegmentWritten x a ws s t := by
  have hlaw := (writeSegment_written hw).law
  obtain ⟨_, _, _, _, h16, h17⟩ := h
  rw [writeSegment, targetSlot_table hx] at hw
  cases hw
  refine ⟨rfl, ?_, ?_, fun i => ?_, fun y i hy => ?_, hlaw⟩
  · simp only [State.setLdu_ldu, apply_ite Ldu.claims, ite_self]
  · simp only [State.setLdu_ldu, apply_ite Ldu.buf, ite_self]
  · rw [regionWord_table _ hx, regionWord_table _ hx]
    by_cases hx16 : x.val = 16
    · simp only [hx16, if_true, State.setLdu_ldu, Mem.read_writeAll h16]
    · simp only [hx16, if_false, State.setLdu_ldu, Mem.read_writeAll h17]
  · rcases targetSlot_cases y with ⟨j, rfl, _⟩ | ⟨_, hj⟩
    · rw [regionWord_slot, regionWord_slot]; rfl
    · have hyt := table_target hj
      have hyx : y.val ≠ x.val := fun e => hy (Fin.ext e)
      rw [regionWord_table _ (by omega), regionWord_table _ (by omega)]
      by_cases hx16 : x.val = 16
      · have hy16 : y.val ≠ 16 := by omega
        simp only [hx16, hy16, if_true, if_false, State.setLdu_ldu]
      · have hy16 : y.val = 16 := by omega
        simp only [hx16, hy16, if_true, if_false, State.setLdu_ldu]

/-- The checks of R142 keep a segment of a LOADING target from being refused. -/
theorem writeSegment_taken {a : Nat} {ws : List Word} (h : StoreLaws s) (hc : s.ldu.claims[x] = some c)
    (hl : c.isChecking = false) (hfit : a + ws.length ≤ c.length) :
    ∃ t, writeSegment x a ws s = .ok t ∧ SegmentWritten x a ws s t := by
  rcases targetSlot_cases x with ⟨k, rfl, hk⟩ | ⟨hk, hx⟩
  · obtain ⟨⟨b, hdir⟩, _⟩ := h.claimed hc
    rw [hl] at hdir
    have hregion : s.pst.dir[k].region = some (b, c.length) := by rw [hdir]; rfl
    have hw : writeSegment (slotTarget k) a ws s
        = .ok (s.setPst { s.pst with store := s.pst.store.writeAll (b + a) ws }) := by
      simp only [writeSegment, hk, Pst.writeSegment, hdir, Bool.false_eq_true, if_false, if_pos hfit]
    exact ⟨_, hw, slotSegment_written h.2 hregion hfit hw⟩
  · have hx' := table_target hx
    have hw : writeSegment x a ws s = .ok (s.setLdu (if x.val = 16
        then { s.ldu with staging16 := s.ldu.staging16.writeAll a ws }
        else { s.ldu with staging17 := s.ldu.staging17.writeAll a ws })) := by
      rw [writeSegment, hk]
    exact ⟨_, hw, tableSegment_written h.2 (by omega) hw⟩

/-- Once a segment is written the target's claim record and the buffer are brought up to date, and no word changes. -/
theorem SegmentWritten.setBook {a : Nat} {ws : List Word} (h : SegmentWritten x a ws s u) {d : Option Claim}
    {b : Option LoadBuffer} (ht : t = (u.setLdu { u.ldu with buf := b }).setClaim x d) :
    t = (s.setPst { s.pst with store := t.pst.store }).setLdu t.ldu ∧ t.ldu.claims[x] = d
      ∧ (∀ y, y ≠ x → t.ldu.claims[y] = s.ldu.claims[y]) ∧ t.ldu.buf = b
      ∧ (∀ i, regionWord t x i = if a ≤ i ∧ i < a + ws.length then ws.getD (i - a) 0 else regionWord s x i)
      ∧ ∀ y i, y ≠ x → regionWord t y i = regionWord s y i := by
  subst ht
  have hword : ∀ y i, regionWord ((u.setLdu { u.ldu with buf := b }).setClaim x d) y i = regionWord u y i :=
    regionWord_congr rfl rfl rfl
  refine ⟨?_, ?_, fun y hy => ?_, rfl, fun i => (hword x i).trans (h.own i), fun y i hy => (hword y i).trans (h.others y i hy)⟩
  · conv_lhs => rw [h.rest]
    rfl
  · rw [State.setClaim_ldu, setAt_get, if_pos rfl]
  · rw [State.setClaim_ldu, setAt_get, if_neg hy, State.setLdu_ldu, h.claims]

/-! ### Flush (R144, R145) -/

theorem flush_unbuffered (h : s.ldu.buffered x = none) : flush x c s = .ok (s, c, false) := by
  rw [flush, h]

/-- The buffered words of a LOADING target are written at their start offset, and the buffer is freed. -/
theorem flush_buffered (h : StoreLaws s) (hload : LoadLaw s) (hc : s.ldu.claims[x] = some c) (hl : c.isChecking = false)
    {a : Nat} {ws : List Word} (hb : s.ldu.buffered x = some (a, ws)) :
    ∃ u, flush x c s = .ok (u.setLdu { u.ldu with buf := none },
        { c with committed := max c.committed (a + ws.length) }, true) ∧ SegmentWritten x a ws s u := by
  obtain ⟨_, hrun, _⟩ := hload.1 x c hc
  obtain ⟨_, _, hend⟩ := hload.held hc hb
  obtain ⟨u, hu, hw⟩ := writeSegment_taken h hc hl (hend ▸ hrun)
  exact ⟨u, by rw [flush, hb]; dsimp only; rw [hu], hw⟩

/-! ### LOAD (R143) -/

/-- The words of a LOAD, with those held before them, fill whole segments, and the rest stays held. -/
theorem appendWords_segments {n : Nat} (ws : List Word) {r : LoadRun} (h : StoreLaws r.state)
    (hc : r.state.ldu.claims[x] = some c) (hl : c.isChecking = false) (hheld : r.held.length < n) (hok : r.failed = none)
    (hfit : r.start + r.held.length + ws.length ≤ c.length) {all : List Word} (hall : all = r.held ++ ws) {m : Nat}
    (hm : m = all.length / n) :
    ∃ u, appendWords x n ws r
        = { state := u, start := r.start + m * n, held := all.drop (m * n),
            committed := if m = 0 then r.committed else max r.committed (r.start + m * n), segments := r.segments + m,
            failed := none }
      ∧ SegmentWritten x r.start (all.take (m * n)) r.state u := by
  induction ws generalizing r all m with
  | nil =>
    obtain rfl : all = r.held := by rw [hall, List.append_nil]
    obtain rfl : m = 0 := by rw [hm, Nat.div_eq_of_lt hheld]
    obtain ⟨u, a, held, com, k, f⟩ := r
    obtain rfl : f = none := hok
    refine ⟨u, by simp [appendWords], ?_⟩
    simpa using SegmentWritten.nil x a u
  | cons w ws ih =>
    rw [List.length_cons] at hfit
    have hlen : (r.held ++ [w]).length = r.held.length + 1 := List.length_append ..
    rw [List.append_cons] at hall
    by_cases hfull : r.held.length + 1 = n
    case pos =>
      obtain ⟨v, hv, hseg⟩ := writeSegment_taken (ws := r.held ++ [w]) h hc hl (a := r.start) (by omega)
      have hclaims : v.ldu.claims[x] = some c := by rw [hseg.claims]; exact hc
      obtain ⟨u, hu, hrest⟩ := ih (r := r.wrote n v) (h.written (writeSegment_written hv)) hclaims (by simp [LoadRun.wrote]; omega)
        rfl (by simp [LoadRun.wrote]; omega) rfl rfl
      have hcount : m = ws.length / n + 1 := by
        rw [hm, hall, List.length_append, hlen, hfull, Nat.add_div_left _ (by omega)]
      have hwords : m * n = (r.held ++ [w]).length + ws.length / n * n := by rw [hcount, hlen, hfull]; ring
      have hreached : r.start + m * n = r.start + n + ws.length / n * n := by rw [hwords, hlen, hfull, Nat.add_assoc]
      have hcommitted : (if ws.length / n = 0 then max r.committed (r.start + n)
          else max (max r.committed (r.start + n)) (r.start + n + ws.length / n * n)) = max r.committed (r.start + m * n) := by
        rw [hreached]
        by_cases h0 : ws.length / n = 0
        · rw [if_pos h0, h0, Nat.zero_mul, Nat.add_zero]
        · rw [if_neg h0, max_assoc, max_eq_right (Nat.le_add_right ..)]
      refine ⟨u, ?_, ?_⟩
      · rw [appendWords_wrote hfull hv, hu, if_neg (show m ≠ 0 from hcount ▸ Nat.succ_ne_zero _), ← hcommitted, hreached]
        simp only [LoadRun.wrote, List.nil_append, LoadRun.mk.injEq, true_and, and_true]
        exact ⟨by rw [hall, hwords, List.drop_length_add_append], rfl, by rw [hcount]; ring⟩
      · rw [hall, hwords, List.take_length_add_append]
        exact hseg.append (by rw [hlen, hfull]; exact hrest)
    case neg =>
      obtain ⟨u, hu, hseg⟩ := ih (r := { r with held := r.held ++ [w] }) h hc (by simp only [hlen]; omega) hok
        (by simp only [hlen]; omega) hall hm
      exact ⟨u, by rw [appendWords_room hfull, hu], hseg⟩

/-- The buffer that a LOAD leaves is free when the words fill whole segments. -/
theorem bufferOf_rest (a n : Nat) (all : List Word) : bufferOf x a (all.drop (all.length / n * n))
    = if all.length % n = 0 then none else some { owner := x, start := a, words := all.drop (all.length / n * n) } := by
  have hrest : all.drop (all.length / n * n) = [] ↔ all.length % n = 0 := by
    have := Nat.div_add_mod' all.length n
    rw [List.drop_eq_nil_iff]
    omega
  simp only [bufferOf, hrest]

end Sys2Proof.Machine
end

section
/-! SUPPORT. The checks that the commands of a claimed target share; LOAD and COMMIT. -/
namespace Sys2Proof.Machine

/-! ## Commands of a claimed target (R142, R144, R145, R148) -/

section
variable {s : State} {x : Target} {c : Claim} {m : Mgmt} {b : BitVec 3}

/-- Tests 2 to 4 of R166. -/
theorem precheck_none_iff {k : Cmd} : precheck k m = none
    ↔ (m.dest ≠ 0 ∨ k.broadcast = true) ∧ k.admitsCount m.params.length = true ∧ ∀ r ∈ k.ranges m, r.2 = true := by
  cases hcount : k.admitsCount m.params.length with
  | false => simp [precheck, hcount, ite_eq_iff]
  | true => rw [precheck_eq_none hcount]; simp

theorem ownClaim_unclaimed (h : s.ldu.claims[x] = none) : ownClaim s x b = .error (answer .notClaimed []) := by
  rw [ownClaim, h]

theorem ownClaim_other (h : s.ldu.claims[x] = some c) (hh : c.holder ≠ b) : ownClaim s x b = .error (heldBy c.holder) := by
  rw [ownClaim, h]; exact if_neg hh

theorem ownClaim_own (h : s.ldu.claims[x] = some c) (hh : c.holder = b) : ownClaim s x b = .ok c := by
  rw [ownClaim, h]; exact if_pos hh

theorem ownLoading_unclaimed (h : s.ldu.claims[x] = none) : ownLoading s x b = .error (answer .notClaimed []) := by
  rw [ownLoading, ownClaim_unclaimed h]

theorem ownLoading_other (h : s.ldu.claims[x] = some c) (hh : c.holder ≠ b) :
    ownLoading s x b = .error (heldBy c.holder) := by rw [ownLoading, ownClaim_other h hh]

theorem ownLoading_checking (h : s.ldu.claims[x] = some c) (hh : c.holder = b) (hk : c.isChecking = true) :
    ownLoading s x b = .error (answer .wrongState []) := by
  rw [ownLoading, ownClaim_own h hh]; exact if_pos hk

theorem ownLoading_own (h : s.ldu.claims[x] = some c) (hh : c.holder = b) (hk : c.isChecking = false) :
    ownLoading s x b = .ok c := by
  rw [ownLoading, ownClaim_own h hh]; exact if_neg (Bool.eq_false_iff.1 hk)

end

/-! ## LOAD (R142, R143) -/

section
variable {s : State} {x : Target} {c : Claim} {m : Mgmt}

theorem exec_load (h : Serves .load m s) : exec .load s = .next (finishCommand m (loadBody m s)) :=
  congrArg Host.Outcome.next (serve_served h loadBody)

/-- A LOAD that checks 1 to 3 refuse. -/
theorem exec_load_turnedAway (h : Serves .load m s) {o : OutcomeCode} {d : List Word}
    (he : ownLoading s (targetParam m) m.source = .error (answer o d)) : exec .load s = .next (answered m o d s) := by
  rw [exec_load h, loadBody, he]; rfl

/-- A LOAD that checks 4 to 6 refuse. -/
theorem exec_load_refused (h : Serves .load m s) (hown : ownLoading s (targetParam m) m.source = .ok c) {o : OutcomeCode}
    {d : List Word} (hr : loadRefusal (targetParam m) (m.num 1) (m.params.drop 2).length c s = some (answer o d)) :
    exec .load s = .next (answered m o d s) := by
  rw [exec_load h, loadBody, hown]
  dsimp only
  rw [hr]; rfl

theorem exec_load_taken (h : Serves .load m s) (hown : ownLoading s (targetParam m) m.source = .ok c)
    (hr : loadRefusal (targetParam m) (m.num 1) (m.params.drop 2).length c s = none) :
    exec .load s = .next (finishCommand m (takeLoad (targetParam m) c (m.params.drop 2) s)) := by
  rw [exec_load h, loadBody, hown]
  dsimp only
  rw [hr]

theorem otherOwner_other {u : Ldu} {b : LoadBuffer} (hb : u.buf = some b) (ho : b.owner ≠ x) :
    otherOwner u x = some b.owner := by
  rw [otherOwner, hb]; exact if_neg ho

theorem otherOwner_none {u : Ldu} (h : ∀ b, u.buf = some b → b.owner = x) : otherOwner u x = none := by
  unfold otherOwner
  split
  · exact if_pos (h _ ‹_›)
  · rfl

/-- With no other target's words buffered, the buffer's words are those of x. -/
theorem Ldu.buffered_owned {u : Ldu} (h : ∀ b, u.buf = some b → b.owner = x) :
    u.buffered x = u.buf.map fun b => (b.start, b.words) := by
  unfold Ldu.buffered
  cases hb : u.buf with
  | none => rfl
  | some b => exact if_pos (h b hb)

/-- A LOAD that is taken (R143). -/
theorem takeLoad_done (hs : StoreLaws s) (hload : LoadLaw s) (hc : s.ldu.claims[x] = some c) (hl : c.isChecking = false)
    (howned : ∀ b, s.ldu.buf = some b → b.owner = x) {ws : List Word} (hfit : c.running + ws.length ≤ c.length) :
    let all := (s.ldu.buf.map (·.words)).getD [] ++ ws
    let start := (s.ldu.buf.map (·.start)).getD c.running
    let n := all.length / c.segment
    let committed := if n = 0 then c.committed else max c.committed (start + n * c.segment)
    ∃ t, takeLoad x c ws s = (t, answer .done [word (c.running + ws.length), word committed, word n])
      ∧ t = (s.setPst { s.pst with store := t.pst.store }).setLdu t.ldu
      ∧ t.ldu.claims[x] = some { c with phase := .loading 0, running := c.running + ws.length, committed := committed }
      ∧ (∀ y, y ≠ x → t.ldu.claims[y] = s.ldu.claims[y])
      ∧ t.ldu.buf = (if all.length % c.segment = 0 then none
          else some { owner := x, start := start + n * c.segment, words := all.drop (n * c.segment) })
      ∧ (∀ k, regionWord t x k = if start ≤ k ∧ k < start + n * c.segment then all.getD (k - start) 0 else regionWord s x k)
      ∧ ∀ y k, y ≠ x → regionWord t y k = regionWord s y k := by
  intro all start n committed
  obtain ⟨hheld, hstart⟩ := loadStart_offsets hload hc
  have hbegin : loadStart x c s = LoadRun.mk s start ((s.ldu.buf.map (·.words)).getD []) c.committed 0 none := by
    rw [loadStart, Ldu.buffered_owned howned, Option.map_map, Option.map_map]; rfl
  obtain ⟨u, hu, hseg⟩ := appendWords_segments (r := loadStart x c s) ws hs hc hl hheld rfl (by omega) (all := all)
    (by rw [hbegin]) rfl
  rw [hbegin] at hu hseg
  obtain ⟨hrest, hx, hy, hbuf, hown, hothers⟩ := hseg.setBook rfl
    (d := some { c with phase := .loading 0, running := c.running + ws.length, committed := committed })
    (b := bufferOf x (start + n * c.segment) (all.drop (n * c.segment)))
  refine ⟨_, ?_, hrest, hx, hy, hbuf.trans (bufferOf_rest _ _ all), fun k => ?_, hothers⟩
  · rw [takeLoad, hbegin, hu]
    simp only [Nat.zero_add]
    rfl
  · refine (hown k).trans ?_
    dsimp only
    rw [List.length_take, Nat.min_eq_left (Nat.div_mul_le_self ..)]
    by_cases hk : start ≤ k ∧ k < start + n * c.segment
    · have hbefore : k - start < n * c.segment := by omega
      rw [if_pos hk, if_pos hk, List.getD_eq_getElem?_getD, List.getElem?_take_of_lt hbefore, ← List.getD_eq_getElem?_getD]
    · rw [if_neg hk, if_neg hk]

end

/-- Settles O39: checks 1 to 3 by `ownLoading`, checks 4 to 6 by `loadRefusal`, and the LOAD taken by `takeLoad_done`. -/
theorem loadWritesFullSegments : Obligations.LoadWritesFullSegments := by
  refine ⟨fun m => ?_, fun s x k i => ⟨?_, fun h => ?_, fun h => ?_, fun h => slotWord_empty h i, fun b l h => slotWord_region h i⟩,
    fun m s hs => ⟨fun h => ?_, fun c hc => ⟨fun hh => ?_, fun hh hk => ?_, fun hh hk => ⟨fun b hb ho => ?_, fun howned =>
      ⟨fun hoff => ?_, fun hoff => ⟨fun hlong => ?_, fun hfit huse hload hstore => ?_⟩⟩⟩⟩⟩⟩
  · simp [precheck_none_iff, Cmd.broadcast, Cmd.admitsCount, Cmd.ranges, and_assoc]
  · rintro rfl
    exact regionWord_slot s k i
  · rw [regionWord_table s (by omega), if_pos h]
  · rw [regionWord_table s (by omega), if_neg (by omega)]
  · exact exec_load_turnedAway hs (ownLoading_unclaimed h)
  · exact exec_load_turnedAway hs (ownLoading_other hc hh)
  · exact exec_load_turnedAway hs (ownLoading_checking hc hh hk)
  · exact exec_load_refused hs (ownLoading_own hc hh hk) (by rw [loadRefusal, otherOwner_other hb ho])
  · exact exec_load_refused hs (ownLoading_own hc hh hk) (by rw [loadRefusal, otherOwner_none howned]; exact if_pos hoff)
  · refine exec_load_refused hs (ownLoading_own hc hh hk) ?_
    rw [loadRefusal, otherOwner_none howned]
    dsimp only
    rw [if_neg (not_not.2 hoff), if_pos hlong]
  · rw [hoff] at hfit
    obtain ⟨t, ht, hleft⟩ := takeLoad_done ⟨huse, hstore⟩ hload hc hk howned hfit
    have hnone : loadRefusal (targetParam m) (m.num 1) (m.params.drop 2).length c s = none := by
      rw [loadRefusal, otherOwner_none howned]
      dsimp only
      rw [if_neg (not_not.2 hoff), hoff, if_neg (not_lt.2 hfit)]
    refine ⟨t, ?_, hleft⟩
    rw [exec_load_taken hs (ownLoading_own hc hh hk) hnone, ht]
    rfl

/-! ## COMMIT (R144) -/

section
variable {s : State} {x : Target} {c : Claim} {m : Mgmt}

theorem exec_commit (h : Serves .commit m s) : exec .commit s = .next (finishCommand m (commitBody m s)) :=
  congrArg Host.Outcome.next (serve_served h commitBody)

/-- A COMMIT that the first three checks refuse. -/
theorem exec_commit_turnedAway (h : Serves .commit m s) {o : OutcomeCode} {d : List Word}
    (he : ownLoading s (targetParam m) m.source = .error (answer o d)) : exec .commit s = .next (answered m o d s) := by
  rw [exec_commit h, commitBody, he]; rfl

/-- The resume offset is examined against the committed offset as it would stand. -/
theorem exec_commit_own (h : Serves .commit m s) (hown : ownLoading s (targetParam m) m.source = .ok c) {n : Nat}
    (hn : committedAfter s.ldu (targetParam m) c = n) : exec .commit s = .next (
      if m.num 1 ≠ 65535 ∧ n < m.num 1 then answered m .offset [word c.running, word c.committed] s
      else finishCommand m (takeCommit (targetParam m) c (resumeParam m) s)) := by
  have hfar : resumeTooFar (resumeParam m) n = true ↔ m.num 1 ≠ 65535 ∧ n < m.num 1 := by
    unfold resumeParam
    split_ifs with habsent <;> simp [resumeTooFar, habsent]
  rw [exec_commit h, commitBody, hown]
  dsimp only
  rw [hn]
  simp only [hfar]
  split <;> rfl

theorem resumeParam_getD (m : Mgmt) (n : Nat) : (resumeParam m).getD n = if m.num 1 = 65535 then n else m.num 1 := by
  unfold resumeParam
  split <;> rfl

/-- A COMMIT that finds words of its target buffered. -/
theorem takeCommit_done (hs : StoreLaws s) (hload : LoadLaw s) (hc : s.ldu.claims[x] = some c) (hl : c.isChecking = false)
    {a : Nat} {ws : List Word} (hb : s.ldu.buffered x = some (a, ws)) (resume : Option Nat) :
    let committed := max c.committed (a + ws.length)
    let running := resume.getD c.running
    ∃ t, takeCommit x c resume s = (t, answer .done [word running, word committed])
      ∧ t = (s.setPst { s.pst with store := t.pst.store }).setLdu t.ldu
      ∧ t.ldu.claims[x] = some { c with phase := .loading 0, running := running, committed := committed }
      ∧ (∀ y, y ≠ x → t.ldu.claims[y] = s.ldu.claims[y]) ∧ t.ldu.buf = none
      ∧ (∀ k, regionWord t x k = if a ≤ k ∧ k < a + ws.length then ws.getD (k - a) 0 else regionWord s x k)
      ∧ ∀ y k, y ≠ x → regionWord t y k = regionWord s y k := by
  intro committed running
  obtain ⟨u, hu, hseg⟩ := flush_buffered hs hload hc hl hb
  refine ⟨_, ?_, hseg.setBook rfl⟩
  rw [takeCommit, hu]
  rfl

end

/-- Settles O40: the checks by `ownLoading` and `exec_commit_own`, the COMMIT taken by `takeCommit_done` or with nothing to
write. -/
theorem commitWritesTheBufferedWords : Obligations.CommitWritesTheBufferedWords := by
  refine ⟨fun m => ?_, fun m s hs => ⟨fun h => ?_, fun c hc => ⟨fun hh => ?_, fun hh hk => ?_, fun hh hk =>
    ⟨fun b hb ho => ?_, fun hother => ?_⟩⟩⟩⟩
  · simp [precheck_none_iff, Cmd.broadcast, Cmd.admitsCount, Cmd.ranges]
  · exact exec_commit_turnedAway hs (ownLoading_unclaimed h)
  · exact exec_commit_turnedAway hs (ownLoading_other hc hh)
  · exact exec_commit_turnedAway hs (ownLoading_checking hc hh hk)
  · have hbuffered := Ldu.buffered_of_owner hb ho
    have hexec := exec_commit_own hs (ownLoading_own hc hh hk) (n := max c.committed (b.start + b.words.length))
      (by rw [committedAfter, hbuffered])
    refine ⟨fun hpresent hfar => ?_, fun hnear huse hload hstore => ?_⟩
    · rw [hexec, if_pos ⟨hpresent, hfar⟩]
    · obtain ⟨t, ht, hleft⟩ := takeCommit_done ⟨huse, hstore⟩ hload hc hk hbuffered (resumeParam m)
      simp only [resumeParam_getD] at ht hleft
      refine ⟨t, ?_, hleft⟩
      rw [hexec, if_neg (by omega), ht]
      rfl
  · have hbuffered : s.ldu.buffered (targetParam m) = none := Ldu.buffered_eq_none.2 hother
    have hexec := exec_commit_own hs (ownLoading_own hc hh hk) (n := c.committed) (by rw [committedAfter, hbuffered])
    refine ⟨fun hpresent hfar => ?_, fun hnear => ?_⟩
    · rw [hexec, if_pos ⟨hpresent, hfar⟩]
    · rw [hexec, if_neg (show ¬ (m.num 1 ≠ 65535 ∧ c.committed < m.num 1) by omega), takeCommit,
        flush_unbuffered hbuffered, ← resumeParam_getD]
      rfl

end Sys2Proof.Machine
end

section
/-! SUPPORT. The staged Contactor Table as FINISH reads it; the slot of a target; FINISH, UNCLAIM and the lapse of a claim. -/
namespace Sys2Proof.Machine

/-! ## FINISH (R145, R52) -/

/-! ### The lowest index that meets a test -/

/-- What stands before index k in the list of all indexes is what lies below it. -/
theorem mem_before_finRange {n : Nat} {before after : List (Fin n)} {k j : Fin n}
    (h : List.finRange n = before ++ k :: after) : j ∈ before ↔ j < k := by
  have hsorted : (before ++ k :: after).Pairwise (· < ·) := h ▸ List.pairwise_lt_finRange n
  obtain ⟨_, hafter, hbefore⟩ := List.pairwise_append.1 hsorted
  refine ⟨fun hj => hbefore j hj k List.mem_cons_self, fun hj => ?_⟩
  rcases List.mem_append.1 (h ▸ List.mem_finRange j) with hb | hb
  · exact hb
  · rcases List.mem_cons.1 hb with rfl | ha
    · exact absurd hj (lt_irrefl _)
    · exact absurd ((List.pairwise_cons.1 hafter).1 j ha) (lt_asymm hj)

/-! ### The staged table (R145) -/

section
variable {s : State} {w : Nat → Word}

theorem stagedView_buffered {b : LoadBuffer} (hb : s.ldu.buf = some b) (ho : b.owner.val = 16) (k : Nat) : stagedView s k
    = if b.start ≤ k ∧ k < b.start + b.words.length then b.words.getD (k - b.start) 0 else s.ldu.staging16.read k := by
  rw [stagedView, Ldu.buffered_of_owner hb (Fin.ext ho)]

theorem stagedView_unbuffered (h : ∀ b, s.ldu.buf = some b → b.owner.val ≠ 16) (k : Nat) :
    stagedView s k = s.ldu.staging16.read k := by
  rw [stagedView, Ldu.buffered_eq_none.2 fun b hb ho => h b hb (congrArg Fin.val ho)]

theorem definedIn_iff (w : Nat → Word) (c : ContactorIx) :
    definedIn w c = true ↔ ∃ j, j < (w 0).toNat ∧ j < 24 ∧ (w (1 + 3 * j)).toNat = c.val := by
  have hword : ∀ v : Word, v = word c.val ↔ v.toNat = c.val := fun v => by
    rw [← BitVec.toNat_inj, word_toNat (by omega)]
  simp only [definedIn, List.any_eq_true, List.mem_range, beq_iff_eq, hword, Nat.lt_min, and_assoc]

/-- Slot k, if VALID, requires only contactors that the table w defines (R52). -/
def Satisfied (w : Nat → Word) (s : State) (k : Slot) : Prop :=
  s.pst.isValid k = true → ∀ r ∈ recRequirements (s.recordOf k), definedIn w r.1 = true

/-- The first contactor missing of slot k. -/
def missingIn (w : Nat → Word) (s : State) (k : Slot) : Option (Slot × ContactorIx) :=
  if s.pst.isValid k then ((recRequirements (s.recordOf k)).find? fun r => !definedIn w r.1).map fun r => (k, r.1) else none

theorem missingReference_eq (w : Nat → Word) (s : State) : missingReference w s = allSlots.findSome? (missingIn w s) := rfl

theorem missingIn_none {k : Slot} : missingIn w s k = none ↔ Satisfied w s k := by
  unfold missingIn Satisfied
  split
  · simp_all
  · simp_all

theorem missingIn_some {k j : Slot} {c : ContactorIx} (h : missingIn w s k = some (j, c)) :
    j = k ∧ s.pst.isValid k = true ∧ ∃ before p after, recRequirements (s.recordOf k) = before ++ (c, p) :: after
      ∧ definedIn w c = false ∧ ∀ r ∈ before, definedIn w r.1 = true := by
  unfold missingIn at h
  split at h
  · obtain ⟨⟨d, p⟩, hfind, hr⟩ := Option.map_eq_some_iff.1 h
    cases hr
    obtain ⟨hmissing, before, after, hlist, hbefore⟩ := List.find?_eq_some_iff_append.1 hfind
    exact ⟨rfl, ‹_›, before, p, after, hlist, by simpa using hmissing, by simpa using hbefore⟩
  · cases h

theorem missingReference_none : missingReference w s = none ↔ ∀ k, Satisfied w s k := by
  rw [missingReference_eq, List.findSome?_eq_none_iff]
  simp only [mem_allSlots, forall_const, missingIn_none]

theorem missingReference_some {k : Slot} {c : ContactorIx} (h : missingReference w s = some (k, c)) :
    s.pst.isValid k = true ∧ (∀ j, j < k → Satisfied w s j)
      ∧ ∃ before p after, recRequirements (s.recordOf k) = before ++ (c, p) :: after ∧ definedIn w c = false
        ∧ ∀ r ∈ before, definedIn w r.1 = true := by
  rw [missingReference_eq, List.findSome?_eq_some_iff] at h
  obtain ⟨lower, j, higher, hall, hj, hlower⟩ := h
  obtain ⟨rfl, hvalid, hlist⟩ := missingIn_some hj
  exact ⟨hvalid, fun i hi => missingIn_none.1 (hlower i ((mem_before_finRange hall).2 hi)), hlist⟩

/-! ### The conditions of a replacement (R52) -/

/-- UNSET or MUTED with every tower at rest. -/
def OffAir (s : State) : Prop :=
  (s.txe.array = .unset ∨ ∃ r, s.txe.array = .muted r) ∧ ∀ t : TowerIx, s.dsy.atRest t = true

theorem replacementAllowed_iff : replacementAllowed s = true ↔ OffAir s := by
  unfold replacementAllowed OffAir
  rw [Bool.and_eq_true, allAtRest_iff]
  refine and_congr_left' ?_
  cases s.txe.array <;> simp

theorem replacement_onAir (h : ¬ OffAir s) : replacement w s = .wrongState := by
  rw [replacement, if_neg fun ha => h (replacementAllowed_iff.1 ha)]

theorem replacement_missing (h : OffAir s) {k : Slot} {c : ContactorIx} (hm : missingReference w s = some (k, c)) :
    replacement w s = .referenced k c := by rw [replacement, if_pos (replacementAllowed_iff.2 h), hm]

theorem replacement_allowed (h : OffAir s) (hm : missingReference w s = none) : replacement w s = .allowed := by
  rw [replacement, if_pos (replacementAllowed_iff.2 h), hm]

end

/-! ### The slot of a target -/

section
variable {s t u : State} {x : Target} {c : Claim}

/-- An operation of the Pattern Store on a slot that changes the slot's entry in the directory and nothing else. -/
def EntryOnly (f : Pst → Slot → Pst) : Prop := ∀ p k, ∃ e, f p k = p.setEntry k e

theorem setEntry_self (p : Pst) (k : Slot) : p.setEntry k p.dir[k] = p := by
  have hdir : setAt p.dir k p.dir[k] = p.dir := vector_ext fun i => by
    rw [setAt_get]
    split
    · rw [‹i = k›]
    · rfl
  rw [Pst.setEntry, hdir]

theorem finish_entryOnly : EntryOnly Pst.finish := by
  intro p k
  unfold Pst.finish
  split
  · exact ⟨_, rfl⟩
  all_goals exact ⟨_, (setEntry_self p k).symm⟩

theorem reopen_entryOnly : EntryOnly Pst.reopen := by
  intro p k
  unfold Pst.reopen
  split
  · exact ⟨_, rfl⟩
  all_goals exact ⟨_, (setEntry_self p k).symm⟩

theorem abandon_entryOnly : EntryOnly Pst.abandon := fun _ _ => ⟨_, rfl⟩

theorem setEntry_dir (p : Pst) (k j : Slot) (e : SlotEntry) : (p.setEntry k e).dir[j] = if j = k then e else p.dir[j] :=
  setAt_get ..

theorem onSlot_slot (f : Pst → Slot → Pst) (k : Slot) (s : State) : onSlot (slotTarget k) f s = s.setPst (f s.pst k) := by
  rw [onSlot, targetSlot_slotTarget]

theorem onSlot_table (f : Pst → Slot → Pst) (h : ∀ k, slotTarget k ≠ x) (s : State) : onSlot x f s = s := by
  have := table_target h
  rw [onSlot, targetSlot_table (by omega)]

/-- What is done to the slot of a target changes the directory alone. -/
theorem onSlot_dirOnly {f : Pst → Slot → Pst} (hf : EntryOnly f) (x : Target) (s : State) :
    onSlot x f s = s.setPst { s.pst with dir := (onSlot x f s).pst.dir } := by
  rcases targetSlot_cases x with ⟨k, rfl, _⟩ | ⟨_, hx⟩
  · obtain ⟨e, he⟩ := hf s.pst k
    rw [onSlot_slot, he]
    rfl
  · rw [onSlot_table f hx]
    rfl

theorem onSlot_others {f : Pst → Slot → Pst} (hf : EntryOnly f) {k : Slot} (h : x ≠ slotTarget k) (s : State) :
    (onSlot x f s).pst.dir[k] = s.pst.dir[k] := by
  rcases targetSlot_cases x with ⟨j, rfl, _⟩ | ⟨_, hx⟩
  · obtain ⟨e, he⟩ := hf s.pst j
    rw [onSlot_slot, State.setPst_pst, he, setEntry_dir, if_neg fun hk => h (congrArg slotTarget hk.symm)]
  · rw [onSlot_table f hx]

/-- A LOADING entry made CHECKING keeps its region and agrees with its claim record made CHECKING (R5, R137). -/
theorem finish_claimed {k : Slot} (h : StoreLaws s) (hc : s.ldu.claims[slotTarget k] = some c) (hl : c.isChecking = false)
    {d : Claim} (hd : d.isChecking = true) (hh : d.holder = c.holder) (hn : d.length = c.length) :
    (s.pst.finish k).dir[k].region = s.pst.dir[k].region ∧ claimAgrees (s.pst.finish k).dir[k] (some d) = true := by
  obtain ⟨⟨b, hdir⟩, _⟩ := h.claimed hc
  rw [hl] at hdir
  have hentry : s.pst.finish k = s.pst.setEntry k (.checking b c.length c.holder) := by
    unfold Pst.finish
    rw [hdir]; rfl
  rw [hentry, setEntry_dir, if_pos rfl, hdir]
  exact ⟨rfl, by simp [claimAgrees, hd, hh, hn]⟩

/-- The words of the regions stay when a slot's entry keeps its region. -/
theorem regionWord_region (hstore : t.pst.store = s.pst.store) (hdir : ∀ k : Slot, t.pst.dir[k].region = s.pst.dir[k].region)
    (h16 : t.ldu.staging16 = s.ldu.staging16) (h17 : t.ldu.staging17 = s.ldu.staging17) (y : Target) (i : Nat) :
    regionWord t y i = regionWord s y i := by
  rcases targetSlot_cases y with ⟨k, rfl, _⟩ | ⟨_, hy⟩
  · rw [regionWord_slot, regionWord_slot, Pst.slotWord, Pst.slotWord, hdir, hstore]
  · have := table_target hy
    rw [regionWord_table _ (by omega), regionWord_table _ (by omega), h16, h17]

/-! ### FINISH taken or refused -/

variable {m : Mgmt}

theorem exec_finish (h : Serves .finish m s) : exec .finish s = .next (finishCommand m (finishBody m s)) :=
  congrArg Host.Outcome.next (serve_served h finishBody)

/-- A FINISH that checks 1 to 3 refuse. -/
theorem exec_finish_turnedAway (h : Serves .finish m s) {o : OutcomeCode} {d : List Word}
    (he : ownLoading s (targetParam m) m.source = .error (answer o d)) : exec .finish s = .next (answered m o d s) := by
  rw [exec_finish h, finishBody, he]; rfl

/-- A FINISH that check 4 refuses. -/
theorem exec_finish_refused (h : Serves .finish m s) (hown : ownLoading s (targetParam m) m.source = .ok c) {o : OutcomeCode}
    {d : List Word} (hr : finishRefusal (targetParam m) s = some (answer o d)) :
    exec .finish s = .next (answered m o d s) := by
  rw [exec_finish h, finishBody, hown]
  dsimp only
  rw [hr]; rfl

theorem exec_finish_taken (h : Serves .finish m s) (hown : ownLoading s (targetParam m) m.source = .ok c)
    (hr : finishRefusal (targetParam m) s = none) :
    exec .finish s = .next (finishCommand m (takeFinish (targetParam m) c (m.param 1) s)) := by
  rw [exec_finish h, finishBody, hown]
  dsimp only
  rw [hr]

/-- What a FINISH that is taken leaves, its words written from s to u and the buffer b after it. -/
structure Finished (x : Target) (c : Claim) (e : Word) (n : Nat) (s u t : State) : Prop where
  rest     : t = (s.setPst { s.pst with store := t.pst.store, dir := t.pst.dir }).setLdu t.ldu
  claim    : t.ldu.claims[x] = some { c with phase := .checking e 0, committed := n }
  others   : ∀ y, y ≠ x → t.ldu.claims[y] = s.ldu.claims[y]
  slot     : ∀ k : Slot, x = slotTarget k → t.pst.dir[k].region = s.pst.dir[k].region
              ∧ claimAgrees t.pst.dir[k] t.ldu.claims[x] = true
  slots    : ∀ k : Slot, x ≠ slotTarget k → t.pst.dir[k] = s.pst.dir[k]
  words    : ∀ y i, regionWord t y i = regionWord u y i
  memories : t.pst.store = u.pst.store ∧ t.ldu.staging16 = u.ldu.staging16 ∧ t.ldu.staging17 = u.ldu.staging17

/-- Once the buffered words are written the target is made CHECKING (R145). -/
theorem finished {a : Nat} {ws : List Word} (h : StoreLaws s) (hc : s.ldu.claims[x] = some c) (hl : c.isChecking = false)
    (hw : SegmentWritten x a ws s u) (b : Option LoadBuffer) (e : Word) (n : Nat) :
    Finished x c e n s u ((onSlot x Pst.finish (u.setLdu { u.ldu with buf := b })).setClaim x
      (some { c with phase := .checking e 0, committed := n })) := by
  have hu : StoreLaws u := h.written hw.written
  have hcu : u.ldu.claims[x] = some c := by rw [hw.claims]; exact hc
  have hslot : ∀ k : Slot, x = slotTarget k → (onSlot x Pst.finish (u.setLdu { u.ldu with buf := b })).pst.dir[k].region
        = u.pst.dir[k].region
      ∧ claimAgrees (onSlot x Pst.finish (u.setLdu { u.ldu with buf := b })).pst.dir[k]
          (some { c with phase := .checking e 0, committed := n }) = true := by
    rintro k rfl
    rw [onSlot_slot]
    exact finish_claimed hu hcu hl rfl rfl rfl
  have hslots : ∀ k : Slot, x ≠ slotTarget k →
      (onSlot x Pst.finish (u.setLdu { u.ldu with buf := b })).pst.dir[k] = u.pst.dir[k] := fun k hk =>
    onSlot_others finish_entryOnly hk _
  rw [onSlot_dirOnly finish_entryOnly x (u.setLdu { u.ldu with buf := b })]
  generalize (onSlot x Pst.finish (u.setLdu { u.ldu with buf := b })).pst.dir = dir at hslot hslots
  have hregion : ∀ k : Slot, dir[k].region = u.pst.dir[k].region := fun k => by
    by_cases hk : x = slotTarget k
    · exact (hslot k hk).1
    · rw [hslots k hk]
  refine ⟨?_, ?_, fun y hy => ?_, fun k hk => ⟨?_, ?_⟩, fun k hk => ?_, regionWord_region rfl hregion rfl rfl, rfl, rfl, rfl⟩
  · conv_lhs => rw [hw.rest]
    rfl
  · rw [State.setClaim_ldu, setAt_get, if_pos rfl]
  · rw [State.setClaim_ldu, setAt_get, if_neg hy]
    exact congrArg (·[y]) hw.claims
  · exact (hslot k hk).1.trans (congrArg (fun d => d[k].region) hw.dir)
  · rw [State.setClaim_ldu, setAt_get, if_pos rfl]
    exact (hslot k hk).2
  · exact (hslots k hk).trans (congrArg (·[k]) hw.dir)

/-- A FINISH that finds no words of its target buffered. -/
theorem takeFinish_unbuffered (h : StoreLaws s) (hc : s.ldu.claims[x] = some c) (hl : c.isChecking = false)
    (hb : s.ldu.buffered x = none) (e : Word) :
    ∃ t, takeFinish x c e s = (t, answer .started [word c.committed]) ∧ Finished x c e c.committed s s t
      ∧ t.ldu.buf = s.ldu.buf := by
  refine ⟨_, ?_, finished h hc hl (.nil x 0 s) s.ldu.buf e c.committed, ?_⟩
  · rw [takeFinish, flush_unbuffered hb]
    rfl
  · rw [State.setClaim_ldu, onSlot_ldu]
    rfl

/-- A FINISH that writes the words buffered of its target. -/
theorem takeFinish_buffered (h : StoreLaws s) (hload : LoadLaw s) (hc : s.ldu.claims[x] = some c) (hl : c.isChecking = false)
    {a : Nat} {ws : List Word} (hb : s.ldu.buffered x = some (a, ws)) (e : Word) :
    ∃ u t, takeFinish x c e s = (t, answer .started [word (max c.committed (a + ws.length))])
      ∧ SegmentWritten x a ws s u ∧ Finished x c e (max c.committed (a + ws.length)) s u t ∧ t.ldu.buf = none := by
  obtain ⟨u, hu, hw⟩ := flush_buffered h hload hc hl hb
  refine ⟨u, _, ?_, hw, finished h hc hl hw none e (max c.committed (a + ws.length)), ?_⟩
  · rw [takeFinish, hu]
  · rw [State.setClaim_ldu, onSlot_ldu]
    rfl

/-- Check 4 examines target 16 alone. -/
theorem finishRefusal_none (h : x.val = 16 → OffAir s ∧ missingReference (stagedView s) s = none) :
    finishRefusal x s = none := by
  unfold finishRefusal
  split
  · rename_i hx
    obtain ⟨hoff, hmissing⟩ := h hx
    rw [replacement_allowed hoff hmissing]
  · rfl

end

/-- Settles O41: the staged table by `stagedView`, `definedIn` and `missingReference`, the checks by `ownLoading` and
`finishRefusal`, and the FINISH taken by `takeFinish_unbuffered` and `takeFinish_buffered`. -/
theorem finishStartsTheCheck : Obligations.FinishStartsTheCheck := by
  refine ⟨fun s k => ⟨fun b hb ho => stagedView_buffered hb ho k, fun h => stagedView_unbuffered h k⟩, definedIn_iff,
    fun w s => ⟨missingReference_none, fun k c h => missingReference_some h⟩,
    fun m s hs => ⟨fun h => ?_, fun c hc => ⟨fun hh => ?_, fun hh hk => ?_, fun hh hk => ⟨fun hx hair => ?_,
      fun k c' hx hair hmissing => ?_, fun hallowed huse hload hstore => ?_⟩⟩⟩⟩
  · exact exec_finish_turnedAway hs (ownLoading_unclaimed h)
  · exact exec_finish_turnedAway hs (ownLoading_other hc hh)
  · exact exec_finish_turnedAway hs (ownLoading_checking hc hh hk)
  · exact exec_finish_refused hs (ownLoading_own hc hh hk) (by rw [finishRefusal, if_pos hx, replacement_onAir hair])
  · exact exec_finish_refused hs (ownLoading_own hc hh hk)
      (by rw [finishRefusal, if_pos hx, replacement_missing hair hmissing])
  · have hlaws : StoreLaws s := ⟨huse, hstore⟩
    rw [exec_finish_taken hs (ownLoading_own hc hh hk) (finishRefusal_none hallowed)]
    cases hb : s.ldu.buffered (targetParam m) with
    | none =>
      obtain ⟨t, ht, hf, hbuf⟩ := takeFinish_unbuffered hlaws hc hk hb (m.param 1)
      rw [ht]
      exact ⟨t, _, rfl, hf.rest, hf.claim, hf.others, hf.slot, hf.slots, fun _ => ⟨rfl, hbuf, hf.memories⟩,
        fun b hs ho => absurd ho (Ldu.buffered_eq_none.1 hb b hs)⟩
    | some p =>
      obtain ⟨u, t, ht, hw, hf, hbuf⟩ := takeFinish_buffered hlaws hload hc hk hb (m.param 1)
      rw [ht]
      have hown := Ldu.buffered_eq_some.1 hb
      refine ⟨t, _, rfl, hf.rest, hf.claim, hf.others, hf.slot, hf.slots, fun hother => absurd rfl (hother _ hown),
        fun b hs ho => ?_⟩
      obtain rfl : _ = b := Option.some.inj (hown.symm.trans hs)
      exact ⟨rfl, hbuf, fun k => (hf.words _ k).trans (hw.own k), fun y k hy => (hf.words y k).trans (hw.others y k hy)⟩

/-! ## UNCLAIM and the lapse of a claim (R148, R140) -/

section
variable {s : State} {x : Target} {c : Claim} {m : Mgmt}

theorem exec_unclaim (h : Serves .unclaim m s) : exec .unclaim s = .next (finishCommand m (unclaimBody m s)) :=
  congrArg Host.Outcome.next (serve_served h unclaimBody)

theorem exec_unclaim_refused (h : Serves .unclaim m s) {o : OutcomeCode} {d : List Word}
    (he : ownClaim s (targetParam m) m.source = .error (answer o d)) : exec .unclaim s = .next (answered m o d s) := by
  rw [exec_unclaim h, unclaimBody, he]; rfl

theorem exec_unclaim_taken (h : Serves .unclaim m s) (hown : ownClaim s (targetParam m) m.source = .ok c) :
    exec .unclaim s = .next (answered m .done [word c.committed] (abandon (targetParam m) s)) := by
  rw [exec_unclaim h, unclaimBody, hown]; rfl

/-- Where the interval timer counts, the lapse row has its effect. -/
theorem exec_claimLapse (h : Counting s) (x : Target) : exec (.claimLapse x) s = .next (lapse x s) := by
  obtain ⟨hrun, hclk⟩ := h
  show Host.Outcome.next (whileCounting (lapse x) s) = _
  rw [whileCounting, hrun, hclk]; rfl

/-- A LOADING claim lapses (R140). -/
theorem lapse_loading (hc : s.ldu.claims[x] = some c) (hl : c.isChecking = false) : lapse x s
    = (abandon x s).raise .claimLapsed (subjectOf x.val) [c.holder.setWidth 16, word c.committed] := by
  rw [lapse, hc]
  exact if_neg (Bool.eq_false_iff.1 hl)

theorem lapse_unclaimed (hc : s.ldu.claims[x] = none) : lapse x s = s := by rw [lapse, hc]

/-- No lapse timer runs while CHECKING (log 2). -/
theorem lapse_checking (hc : s.ldu.claims[x] = some c) (hk : c.isChecking = true) : lapse x s = s := by
  rw [lapse, hc]
  exact if_pos hk

/-- What abandonment leaves of the Load Unit (R148). -/
theorem abandon_ldu (x : Target) (s : State) : (abandon x s).ldu
    = { (s.ldu.dropBuffer x).clearStaging x with claims := setAt s.ldu.claims x none } := by
  simp only [abandon, State.setClaim_ldu, onSlot_ldu, State.setLdu_ldu, Ldu.clearStaging_claims, Ldu.dropBuffer_claims]

/-- Abandonment changes the directory and the Load Unit alone. -/
theorem abandon_rest (x : Target) (s : State) :
    abandon x s = (s.setPst { s.pst with dir := (abandon x s).pst.dir }).setLdu (abandon x s).ldu := by
  obtain ⟨d, hd⟩ : ∃ d, onSlot x Pst.abandon (s.setLdu ((s.ldu.dropBuffer x).clearStaging x))
      = (s.setLdu ((s.ldu.dropBuffer x).clearStaging x)).setPst { s.pst with dir := d } :=
    ⟨_, onSlot_dirOnly abandon_entryOnly ..⟩
  rw [abandon, hd]
  rfl

theorem abandon_slot (k : Slot) (s : State) : (abandon (slotTarget k) s).pst.dir[k] = .empty := by
  rw [abandon, onSlot_slot, State.setClaim_pst, State.setPst_pst, Pst.abandon, setEntry_dir, if_pos rfl]

theorem abandon_slots {k : Slot} (h : x ≠ slotTarget k) (s : State) : (abandon x s).pst.dir[k] = s.pst.dir[k] :=
  onSlot_others abandon_entryOnly h _

end

/-- Settles O42: UNCLAIM and the lapse by the claim record they find, and abandonment field by field. -/
theorem unclaimAndLapseAbandonTheTarget : Obligations.UnclaimAndLapseAbandonTheTarget := by
  refine ⟨fun m => ?_, fun m s hs => ⟨fun h => ?_, fun c hc => ⟨fun hh => ?_, fun hh => ?_⟩⟩,
    fun x s hs => ⟨fun hc => ?_, fun c hc => ⟨fun hk => ?_, fun hl => ?_⟩⟩, fun x s => ?_⟩
  · simp [precheck_none_iff, Cmd.broadcast, Cmd.admitsCount, Cmd.ranges]
  · exact exec_unclaim_refused hs (ownClaim_unclaimed h)
  · exact exec_unclaim_refused hs (ownClaim_other hc hh)
  · exact exec_unclaim_taken hs (ownClaim_own hc hh)
  · rw [exec_claimLapse hs, lapse_unclaimed hc]
  · rw [exec_claimLapse hs, lapse_checking hc hk]
  · rw [exec_claimLapse hs, lapse_loading hc hl]
  · refine ⟨_, rfl, abandon_rest x s, ?_, fun y hy => ?_, ?_, ?_, ?_, ?_, fun k hk => abandon_slots hk s⟩
    · rw [abandon_ldu, setAt_get, if_pos rfl]
    · rw [abandon_ldu, setAt_get, if_neg hy]
    · rw [abandon_ldu, Ldu.clearStaging_buf, Ldu.dropBuffer_buf]
    · rw [abandon_ldu, Ldu.clearStaging_staging16, Ldu.dropBuffer_staging16]
    · rw [abandon_ldu, Ldu.clearStaging_staging17, Ldu.dropBuffer_staging17]
    · rintro k rfl
      exact abandon_slot k s

end Sys2Proof.Machine
end

section
/-! SUPPORT. The checks of CLAIM, and the claim record, region and trims that a CLAIM leaves. -/
namespace Sys2Proof.Machine

/-! ## CLAIM (R138, R139) -/

theorem Claim.isChecking_iff (c : Claim) : c.isChecking = true ↔ ∃ e n, c.phase = .checking e n := by
  unfold Claim.isChecking
  split <;> simp_all

section
variable {s : State} {x : Target} {c : Claim} {m : Mgmt} {base len n : Nat} {u : BitVec 3} {k : Slot}

/-! ### The checks (R138) -/

/-- Slot j, other than k, has a region that shares a word with the len words from base. -/
def Meets (p : Pst) (k : Slot) (base len : Nat) (j : Slot) : Prop :=
  j ≠ k ∧ ∃ r, p.dir[j].region = some r ∧ base < r.1 + r.2 ∧ r.1 < base + len

/-- The test by which check 5 looks for a slot. -/
def meetsTest (p : Pst) (k : Slot) (base len : Nat) (j : Slot) : Bool :=
  j != k && (match p.dir[j].region with
    | some (b, l) => regionsMeet base len b l
    | none => false)

theorem overlapping_eq (p : Pst) (k : Slot) (base len : Nat) :
    overlapping p k base len = (List.finRange 16).find? (meetsTest p k base len) := rfl

theorem meetsTest_iff {p : Pst} {j : Slot} : meetsTest p k base len j = true ↔ Meets p k base len j := by
  unfold meetsTest Meets
  cases p.dir[j].region <;> simp [regionsMeet]

theorem overlapping_lowest {p : Pst} {j : Slot} (h : Meets p k base len j) (hlow : ∀ i, i < j → ¬ Meets p k base len i) :
    overlapping p k base len = some j := by
  rw [overlapping_eq]
  exact find?_eq_lowest (List.pairwise_lt_finRange 16) (List.mem_finRange j) (meetsTest_iff.2 h)
    fun i hi => Bool.eq_false_iff.2 fun ht => hlow i hi (meetsTest_iff.1 ht)

theorem overlapping_apart {p : Pst} (h : ∀ j, ¬ Meets p k base len j) : overlapping p k base len = none := by
  rw [overlapping_eq, List.find?_eq_none]
  exact fun j _ ht => h j (meetsTest_iff.1 ht)

theorem exec_claim (h : Serves .claim m s) : exec .claim s = .next (finishCommand m (claimBody m s)) :=
  congrArg Host.Outcome.next (serve_served h claimBody)

theorem exec_claim_refused (h : Serves .claim m s) {o : OutcomeCode} {d : List Word}
    (hr : claimRefusal (targetParam m) (m.num 1) (m.num 2) m.source s = some (answer o d)) :
    exec .claim s = .next (answered m o d s) := by
  rw [exec_claim h, claimBody, hr]; rfl

theorem exec_claim_taken (h : Serves .claim m s)
    (hr : claimRefusal (targetParam m) (m.num 1) (m.num 2) m.source s = none) :
    exec .claim s = .next (answered m .done [word (m.num 2), word (segmentLength (m.num 3))]
      (takeClaim (targetParam m) (m.num 1) (m.num 2) (segmentLength (m.num 3)) m.source s)) := by
  rw [exec_claim h, claimBody, hr]; rfl

theorem claimRefusal_other (hc : s.ldu.claims[x] = some c) (hh : c.holder ≠ u) :
    claimRefusal x base len u s = some (heldBy c.holder) := by
  rw [claimRefusal, hc, claimRecordRefusal, if_pos hh]

theorem claimRefusal_checking (hc : s.ldu.claims[x] = some c) (hh : c.holder = u) (hk : c.isChecking = true) :
    claimRefusal x base len u s = some (answer .wrongState []) := by
  rw [claimRefusal, hc, claimRecordRefusal, if_neg (not_not.2 hh), if_pos hk]

/-- An unclaimed target, or one that the sender holds LOADING, is judged by checks 3 to 5. -/
theorem claimRefusal_free (h : ∀ c, s.ldu.claims[x] = some c → c.holder = u ∧ c.isChecking = false) :
    claimRefusal x base len u s = if targetInUse s x then some (answer .inUse [])
      else if claimTooLong x base len then some (answer .range [])
      else (targetOverlap s x base len).map fun j => answer .overlap [word j.val] := by
  have hrecord : claimRecordRefusal s.ldu.claims[x] u = none := by
    cases hc : s.ldu.claims[x] with
    | none => rfl
    | some c =>
      obtain ⟨hh, hk⟩ := h c hc
      simp [claimRecordRefusal, hh, hk]
  rw [claimRefusal, hrecord]

theorem targetInUse_slot (s : State) (k : Slot) : targetInUse s (slotTarget k) = s.txe.inUse k := by
  rw [targetInUse, targetSlot_slotTarget]

theorem targetInUse_free (h : ∀ k, x = slotTarget k → s.txe.inUse k = false) : targetInUse s x = false := by
  rcases targetSlot_cases x with ⟨k, rfl, _⟩ | ⟨hx, _⟩
  · rw [targetInUse_slot, h k rfl]
  · rw [targetInUse, hx]

theorem claimTooLong_iff : claimTooLong x base len = true
    ↔ (x.val < 16 ∧ 2048 < base + len) ∨ (x.val = 16 ∧ 73 < len) ∨ (x.val = 17 ∧ 145 < len) := by
  have := x.isLt
  unfold claimTooLong
  split
  · simp only [decide_eq_true_eq]
    omega
  · split <;> simp only [decide_eq_true_eq] <;> omega

theorem targetOverlap_slot (s : State) (k : Slot) (base len : Nat) :
    targetOverlap s (slotTarget k) base len = overlapping s.pst k base len := by
  rw [targetOverlap, targetSlot_slotTarget]

theorem targetOverlap_apart (h : ∀ k j : Slot, x = slotTarget k → ¬ Meets s.pst k base len j) :
    targetOverlap s x base len = none := by
  rcases targetSlot_cases x with ⟨k, rfl, _⟩ | ⟨hx, _⟩
  · rw [targetOverlap_slot, overlapping_apart fun j => h k j rfl]
  · rw [targetOverlap, hx]

/-! ### A CLAIM that is taken (R139) -/

/-- It changes the Pattern Store and the Load Unit alone. -/
theorem takeClaim_rest : takeClaim x base len n u s
    = (s.setPst (takeClaim x base len n u s).pst).setLdu (takeClaim x base len n u s).ldu := by
  unfold takeClaim claimRegion
  split <;> rfl

theorem Ldu.clearStaging_slot (l : Ldu) (k : Slot) : l.clearStaging (slotTarget k) = l := by
  have hk : (slotTarget k).val < 16 := k.isLt
  rw [Ldu.clearStaging, if_neg (by omega), if_neg (by omega)]

theorem takeClaim_ldu : (takeClaim x base len n u s).ldu = { (s.ldu.dropBuffer x).clearStaging x with
    claims := setAt s.ldu.claims x (some
        { phase := .loading 0, holder := u, length := len, segment := n, running := 0, committed := 0 }) } := by
  unfold takeClaim claimRegion
  rcases targetSlot_cases x with ⟨k, rfl, hk⟩ | ⟨hx, _⟩
  · rw [hk]
    simp only [State.setClaim_ldu, State.setPst_ldu, State.setLdu_ldu, Ldu.dropBuffer_claims, Ldu.clearStaging_slot]
  · rw [hx]
    simp only [State.setClaim_ldu, State.setLdu_ldu, Ldu.clearStaging_claims, Ldu.dropBuffer_claims]

theorem takeClaim_pst_slot (k : Slot) : (takeClaim (slotTarget k) base len n u s).pst = s.pst.claim k base len u := by
  rw [takeClaim, claimRegion, targetSlot_slotTarget]
  rfl

theorem takeClaim_pst_table (h : 16 ≤ x.val) : (takeClaim x base len n u s).pst = s.pst := by
  rw [takeClaim, claimRegion, targetSlot_table h]
  rfl

theorem claim_dir (p : Pst) (k j : Slot) :
    (p.claim k base len u).dir[j] = if j = k then .loading base len u else p.dir[j] := setAt_get ..

theorem claim_trim (p : Pst) (k j : Slot) (t : TowerIx) :
    (p.claim k base len u).trim j t = if j = k then { amp := 0, phase := 0 } else p.trim j t := by
  show (setAt p.trims k (Vector.replicate 8 { amp := 0, phase := 0 }))[j][t] = _
  rw [setAt_get]
  split
  · exact replicate_get ..
  · rfl

end

/-- Settles O38: each check by the part of `claimRefusal` it is, and the CLAIM taken field by field. -/
theorem claimStartsALoad : Obligations.ClaimStartsALoad := by
  refine ⟨Claim.isChecking_iff, fun b l h v x => rfl, fun p k => ⟨rfl, fun _ => rfl, fun b l v x h => by rw [Pst.label, h]⟩,
    fun m s hs => ?_⟩
  intro x base len seg meets
  have hx : x.val = m.num 0 := by
    obtain ⟨_, _, _, hpass⟩ := hs
    have hle : m.num 0 ≤ 17 := of_decide_eq_true (precheck_ranges hpass (0, m.num 0 ≤ 17) (by simp [Cmd.ranges]))
    exact Nat.mod_eq_of_lt (by omega)
  refine ⟨hx, fun c hc hh => ?_, fun c hc hh hk => ?_, fun hfree => ⟨fun k hk huse => ?_, fun huse => ⟨fun hlong => ?_,
    fun hlong => ⟨fun k j hk hj hlow => ?_, fun hapart => ?_⟩⟩⟩⟩
  · exact exec_claim_refused hs (claimRefusal_other hc hh)
  · exact exec_claim_refused hs (claimRefusal_checking hc hh hk)
  · refine exec_claim_refused hs ?_
    rw [claimRefusal_free hfree, if_pos]
    exact (congrArg (targetInUse s) hk).trans ((targetInUse_slot s k).trans huse)
  · refine exec_claim_refused hs ?_
    rw [claimRefusal_free hfree, targetInUse_free huse, if_neg Bool.false_ne_true, if_pos (claimTooLong_iff.2 hlong)]
  · refine exec_claim_refused hs ?_
    rw [claimRefusal_free hfree, targetInUse_free huse, if_neg Bool.false_ne_true, if_neg fun h => hlong (claimTooLong_iff.1 h),
      hk, targetOverlap_slot, overlapping_lowest hj hlow]
    rfl
  · have hnone : claimRefusal (targetParam m) (m.num 1) (m.num 2) m.source s = none := by
      rw [claimRefusal_free hfree, targetInUse_free huse, if_neg Bool.false_ne_true,
        if_neg fun h => hlong (claimTooLong_iff.1 h), targetOverlap_apart hapart]
      rfl
    refine ⟨_, exec_claim_taken hs hnone, takeClaim_rest, ?_, fun y hy => ?_, ?_, ?_, ?_, fun h => takeClaim_pst_table h,
      fun k hk => ?_⟩
    · rw [takeClaim_ldu, setAt_get, if_pos rfl]
      rfl
    · rw [takeClaim_ldu, setAt_get, if_neg hy]
    · rw [takeClaim_ldu, Ldu.clearStaging_buf, Ldu.dropBuffer_buf]
    · rw [takeClaim_ldu, Ldu.clearStaging_staging16, Ldu.dropBuffer_staging16]
    · rw [takeClaim_ldu, Ldu.clearStaging_staging17, Ldu.dropBuffer_staging17]
    · rw [show targetParam m = slotTarget k from hk, takeClaim_pst_slot]
      refine ⟨?_, fun j hj => ?_, fun a => Mem.read_clear .., fun t => ?_, fun j t hj => ?_⟩
      · rw [claim_dir, if_pos rfl]
      · rw [claim_dir, if_neg hj]
      · rw [claim_trim, if_pos rfl]
      · rw [claim_trim, if_neg hj]

end Sys2Proof.Machine
end

section
/-! SUPPORT. The words that READ answers from: slots, live tables, history and trim memory. -/
namespace Sys2Proof.Machine

/-! ## READ (R149) -/

/-! ### Words laid out in blocks of one length -/

/-- Word i of blocks of n words each is word i % n of block i / n. -/
theorem getD_flatMap_blocks {α : Type} {f : α → List Word} {n : Nat} (hn : 0 < n) (hf : ∀ a, (f a).length = n) (l : List α)
    (i : Nat) : (l.flatMap f).getD i 0 = ((l[i / n]?).map fun a => (f a).getD (i % n) 0).getD 0 := by
  induction l generalizing i with
  | nil => simp
  | cons a l ih =>
    rw [List.flatMap_cons]
    by_cases hi : i < n
    · rw [List.getD_append _ _ _ _ (by rw [hf]; exact hi), Nat.div_eq_of_lt hi, Nat.mod_eq_of_lt hi]
      rfl
    · obtain ⟨k, rfl⟩ : ∃ k, i = n + k := ⟨i - n, by omega⟩
      rw [List.getD_append_right _ _ _ _ (by rw [hf]; omega), hf, Nat.add_sub_cancel_left, ih, Nat.add_div_left _ hn,
        Nat.add_mod_left]
      rfl

theorem length_flatMap_blocks {α : Type} {f : α → List Word} {n : Nat} (hf : ∀ a, (f a).length = n) (l : List α) :
    (l.flatMap f).length = n * l.length := by
  rw [List.length_flatMap, List.map_congr_left fun a _ => hf a, List.map_const', List.sum_replicate, smul_eq_mul, Nat.mul_comm]

/-- What stands in block j, at word r of it. -/
theorem getD_flatMap_block {α : Type} {f : α → List Word} {n : Nat} (hf : ∀ a, (f a).length = n) {l : List α} {j r : Nat}
    {a : α} (ha : l[j]? = some a) (hr : r < n) : (l.flatMap f).getD (n * j + r) 0 = (f a).getD r 0 := by
  rw [getD_flatMap_blocks (by omega) hf, Nat.mul_add_div (by omega), Nat.div_eq_of_lt hr, Nat.mul_add_mod, Nat.mod_eq_of_lt hr,
    Nat.add_zero, ha]
  rfl

/-- Taking what a partial function gives is taking its values where it has one. -/
theorem map_some_filterMap {α β : Type} (f : α → Option β) (l : List α) :
    (l.filterMap f).map some = (l.filter fun a => (f a).isSome).map f := by
  induction l with
  | nil => rfl
  | cons a l ih =>
    cases h : f a with
    | none => rw [List.filterMap_cons_none h, ih, List.filter_cons_of_neg (by simp [h])]
    | some b => rw [List.filterMap_cons_some h, List.filter_cons_of_pos (by simp [h]), List.map_cons, List.map_cons, ih, h]

theorem length_filterMap_isSome {α β : Type} (f : α → Option β) (l : List α) :
    (l.filterMap f).length = (l.filter fun a => (f a).isSome).length := by
  simpa using congrArg List.length (map_some_filterMap f l)

theorem getElem?_filterMap {α β : Type} {f : α → Option β} {l : List α} {j : Nat} {a : α} {b : β}
    (ha : (l.filter fun a => (f a).isSome)[j]? = some a) (hb : f a = some b) : (l.filterMap f)[j]? = some b := by
  have h := congrArg (·[j]?) (map_some_filterMap f l)
  simp only [List.getElem?_map, ha, Option.map_some, hb] at h
  obtain ⟨c, hc, hcb⟩ := Option.map_eq_some_iff.1 h
  rw [hc, hcb]

/-! ### Fields of a word built as a number -/

theorem field_word {n : Nat} (h : n < 65536) (lo len : Nat) : field (word n) lo len = n / 2 ^ lo % 2 ^ len := by
  rw [field, word_toNat h]

theorem bit_word {n i : Nat} (h : n < 65536) : (word n).getLsbD i = decide (n / 2 ^ i % 2 = 1) := by
  show (word n).toNat.testBit i = _
  rw [word_toNat h, Nat.testBit_eq_decide_div_mod_eq]

theorem flagBit_eq (b : Bool) (k : Nat) : flagBit b k = 2 ^ k * b.toNat := by cases b <;> simp [flagBit]

/-! ### The live content -/

section
variable {m : Mgmt} {s : State}

theorem exec_read (h : Serves .read m s) : exec .read s = .next (finishCommand m (readBody m s)) :=
  congrArg Host.Outcome.next (serve_served h readBody)

theorem exec_read_empty (h : Serves .read m s) (hr : readable s (m.num 0) = none) :
    exec .read s = .next (answered m .wrongState [] s) := by
  rw [exec_read h, readBody, hr]; rfl

/-- READ shows the words it finds, and zero at and beyond their number. -/
theorem exec_read_words (h : Serves .read m s) {ws : List Word} (hr : readable s (m.num 0) = some ws) {len : Nat}
    (hlen : ws.length = len) {w : Nat → Word} (hw : ∀ i < len, ws.getD i 0 = w i) :
    exec .read s = .next (answered m (if m.num 1 + m.num 2 ≤ len then .done else .range)
      ((List.range (m.num 2)).map fun i => if m.num 1 + i < len then w (m.num 1 + i) else 0) s) := by
  subst hlen
  have hwords : ∀ i, ws.getD (m.num 1 + i) 0 = if m.num 1 + i < ws.length then w (m.num 1 + i) else 0 := by
    intro i
    split
    · exact hw _ ‹_›
    · exact List.getD_eq_default _ _ (by omega)
  rw [exec_read h, readBody, hr]
  simp only [readWords, hwords]
  rfl

theorem readable_slot (s : State) (k : Slot) :
    readable s k.val = (s.pst.dir[k].region).map fun r => (List.range r.2).map (s.pst.slotWord k) := dif_pos k.isLt

theorem readable_contactors {n : Nat} (h : n = 16) : readable s n = some s.ctu.tableWords := by rw [h]; rfl
theorem readable_schedule {n : Nat} (h : n = 17) : readable s n = some s.scu.tableWords := by rw [h]; rfl
theorem readable_history {n : Nat} (h : n = 18) : readable s n = some (s.txe.history.flatMap HistRecord.words) := by
  rw [h]; rfl
theorem readable_trims {n : Nat} (h : n = 19) : readable s n = some s.pst.trimWords := by rw [h]; rfl

theorem slotWords_getD {k : Slot} {b l : Nat} (h : s.pst.dir[k].region = some (b, l)) {i : Nat} (hi : i < l) :
    ((List.range l).map (s.pst.slotWord k)).getD i 0 = s.pst.store.read (b + i) := by
  rw [List.getD_eq_getElem?_getD, List.getElem?_map, List.getElem?_range hi]
  exact (slotWord_region h i).trans (if_pos hi)

end

/-! ### Trim memory (R21) -/

theorem allTowers_getElem? {i : Nat} (h : i < 8) : allTowers[i]? = some ⟨i, h⟩ := by
  rw [allTowers_eq, List.getElem?_eq_getElem (by simpa using h), List.getElem_finRange]
  rfl

theorem allSlots_getElem? {i : Nat} (h : i < 16) : allSlots[i]? = some ⟨i, h⟩ := by
  rw [allSlots, List.getElem?_eq_getElem (by simpa using h), List.getElem_finRange]
  rfl

/-- The 16 trim words of a slot, two for each tower. -/
def slotTrimWords (p : Pst) (k : Slot) : List Word :=
  allTowers.flatMap fun t => [signedWord (p.trim k t).amp, signedWord (p.trim k t).phase]

theorem slotTrimWords_length (p : Pst) (k : Slot) : (slotTrimWords p k).length = 16 :=
  length_flatMap_blocks (n := 2) (fun _ => rfl) allTowers

theorem trimWords_eq (p : Pst) : p.trimWords = allSlots.flatMap (slotTrimWords p) := rfl

theorem trimWords_length (p : Pst) : p.trimWords.length = 256 := by
  rw [trimWords_eq, length_flatMap_blocks (slotTrimWords_length p), allSlots, List.length_finRange]

/-- Word i of trim memory: of slot i / 16 and tower i / 2 the amplitude where i is even, else the phase. -/
def trimWord (p : Pst) (i : Nat) : Word :=
  let x := p.trim (Fin.ofNat 16 (i / 16)) (Fin.ofNat 8 (i / 2))
  if i % 2 = 0 then signedWord x.amp else signedWord x.phase

theorem trimWords_getD (p : Pst) {i : Nat} (h : i < 256) : p.trimWords.getD i 0 = trimWord p i := by
  rw [trimWord]
  have hslot : (⟨i / 16, by omega⟩ : Slot) = Fin.ofNat 16 (i / 16) := Fin.ext (Nat.mod_eq_of_lt (by omega)).symm
  have htower : (⟨i % 16 / 2, by omega⟩ : TowerIx) = Fin.ofNat 8 (i / 2) := Fin.ext (show i % 16 / 2 = i / 2 % 8 by omega)
  rw [trimWords_eq, getD_flatMap_blocks (by decide) (slotTrimWords_length p), allSlots_getElem? (by omega), Option.map_some,
    Option.getD_some, slotTrimWords, getD_flatMap_blocks (n := 2) (by decide) (fun _ => rfl), allTowers_getElem? (by omega),
    Option.map_some, Option.getD_some, hslot, htower, Nat.mod_mod_of_dvd i (by decide : 2 ∣ 16)]
  rcases Nat.mod_two_eq_zero_or_one i with h0 | h1
  · simp only [h0, if_true]
    rfl
  · simp only [h1, Nat.one_ne_zero, if_false]
    rfl

/-! ### The live tables (R39, R126, 11.4) -/

/-- The three words of a contactor's entry. -/
def contactorWords (x : ContactorIx × Contactor) : List Word :=
  [word x.1.val, (match x.2.assoc with
    | .tower t => word t.val
    | .common => 255), word x.2.limit]

/-- The contactors that the table defines, ascending. -/
def Ctu.defined (u : Ctu) : List (ContactorIx × Contactor) :=
  (List.finRange 24).filterMap fun c => u.units[c].entry.map fun e => (c, e)

theorem Ctu.tableWords_eq (u : Ctu) : u.tableWords = word u.defined.length :: u.defined.flatMap contactorWords := rfl

theorem Ctu.defined_length (u : Ctu) :
    u.defined.length = ((List.finRange 24).filter fun c => u.units[c].entry.isSome).length := by
  simp only [Ctu.defined, length_filterMap_isSome, Option.isSome_map]

/-- Entry j stands in the three words from 1 + 3 × j. -/
theorem Ctu.tableWords_entry {u : Ctu} {j : Nat} {c : ContactorIx} {e : Contactor}
    (hc : ((List.finRange 24).filter fun c => u.units[c].entry.isSome)[j]? = some c) (he : u.units[c].entry = some e)
    {r : Nat} (hr : r < 3) : u.tableWords.getD (1 + r + 3 * j) 0 = (contactorWords (c, e)).getD r 0 := by
  have hj : u.defined[j]? = some (c, e) :=
    getElem?_filterMap (by simpa only [Option.isSome_map] using hc) (by rw [he]; rfl)
  rw [Ctu.tableWords_eq, show 1 + r + 3 * j = (3 * j + r) + 1 by omega, List.getD_cons_succ]
  exact getD_flatMap_block (f := contactorWords) (n := 3) (fun _ => rfl) hj hr

/-- The entries that the live table has, ascending. -/
def Scu.entries (u : Scu) : List (EntryIx × SchedEntry) :=
  (List.finRange 48).filterMap fun i => u.table[i].map fun e => (i, e)

/-- The three words of a schedule entry. -/
def entryWords (x : EntryIx × SchedEntry) : List Word := x.2.words x.1

theorem Scu.tableWords_eq (u : Scu) : u.tableWords = word u.entries.length :: u.entries.flatMap entryWords := by
  have hwords : (allEntries.filterMap fun i => u.table[i].map fun e => e.words i) = u.entries.map entryWords := by
    rw [Scu.entries, List.map_filterMap]
    simp only [Option.map_map]
    rfl
  rw [Scu.tableWords, hwords, List.length_map, List.flatMap_def]

theorem Scu.entries_length (u : Scu) :
    u.entries.length = ((List.finRange 48).filter fun i => u.table[i].isSome).length := by
  simp only [Scu.entries, length_filterMap_isSome, Option.isSome_map]

theorem Scu.tableWords_entry {u : Scu} {j : Nat} {i : EntryIx} {e : SchedEntry}
    (hi : ((List.finRange 48).filter fun i => u.table[i].isSome)[j]? = some i) (he : u.table[i] = some e)
    {r : Nat} (hr : r < 3) : u.tableWords.getD (1 + r + 3 * j) 0 = (e.words i).getD r 0 := by
  have hj : u.entries[j]? = some (i, e) :=
    getElem?_filterMap (by simpa only [Option.isSome_map] using hi) (by rw [he]; rfl)
  rw [Scu.tableWords_eq, show 1 + r + 3 * j = (3 * j + r) + 1 by omega, List.getD_cons_succ]
  exact getD_flatMap_block (f := entryWords) (n := 3) (fun _ => rfl) hj hr

/-- The first word of a schedule entry (11.4). -/
theorem schedWord_fields (i : EntryIx) (e : SchedEntry) : let w := word (i.val + flagBit e.enabled 8 + 4096 * e.mode.code)
    field w 0 8 = i.val ∧ (field w 8 2 = if e.enabled then 1 else 0) ∧ field w 10 2 = 0
    ∧ (e.mode = .default → field w 12 4 = 0) ∧ (e.mode = .fullMute → field w 12 4 = 1)
    ∧ (e.mode = .blend → field w 12 4 = 2) := by
  have hi := i.isLt
  have hmode : e.mode.code ≤ 2 := by cases e.mode <;> decide
  have hflag : e.enabled.toNat ≤ 1 := Bool.toNat_le _
  have hif : (if e.enabled then 1 else 0) = e.enabled.toNat := by cases e.enabled <;> rfl
  have hcode : (e.mode = .default → e.mode.code = 0) ∧ (e.mode = .fullMute → e.mode.code = 1)
      ∧ (e.mode = .blend → e.mode.code = 2) := by cases e.mode <;> simp [ReqMode.code]
  rw [hif, flagBit_eq]
  have hlt : i.val + 2 ^ 8 * e.enabled.toNat + 4096 * e.mode.code < 65536 := by omega
  simp only [field_word hlt]
  obtain ⟨hdefault, hmute, hblend⟩ := hcode
  refine ⟨by omega, by omega, by omega, fun h => ?_, fun h => ?_, fun h => ?_⟩
  · have := hdefault h; omega
  · have := hmute h; omega
  · have := hblend h; omega

/-! ### A history record (R82, 11.3) -/

/-- The second word of a history record. -/
theorem histWord_fields (h : HistRecord) :
    let w := word (h.cause.code + flagBit (h.mode == .blend) 4 + flagBit h.joint 5 + 256 * h.outcome.code)
    field w 0 3 = h.cause.code ∧ (w.getLsbD 4 = true ↔ h.mode = .blend) ∧ w.getLsbD 5 = h.joint
      ∧ field w 8 2 = h.outcome.code := by
  have hcause : h.cause.code ≤ 5 := by cases h.cause <;> decide
  have houtcome : h.outcome.code ≤ 3 := by cases h.outcome <;> decide
  have hblend : (h.mode == .blend).toNat ≤ 1 := Bool.toNat_le _
  have hjoint : h.joint.toNat ≤ 1 := Bool.toNat_le _
  have hb : (h.mode == .blend).toNat = 1 ↔ h.mode = .blend := by rw [Bool.toNat_eq_one, beq_iff_eq]
  have hj : decide (h.joint.toNat = 1) = h.joint := by cases h.joint <;> rfl
  rw [flagBit_eq, flagBit_eq]
  have hlt : h.cause.code + 2 ^ 4 * (h.mode == .blend).toNat + 2 ^ 5 * h.joint.toNat + 256 * h.outcome.code < 65536 := by
    omega
  simp only [field_word hlt, bit_word hlt, decide_eq_true_eq]
  refine ⟨by omega, ?_, ?_, by omega⟩
  · rw [← hb]; omega
  · conv_rhs => rw [← hj]
    rw [decide_eq_decide]
    omega

theorem slotByte_eq (k : Option Slot) : slotByte k = (k.map (·.val)).getD 255 := by cases k <;> rfl

/-- The third word of a history record: source slot and target slot. -/
theorem histSlots_fields (a : Option Slot) (b : Slot) : field (word (slotByte a + 256 * b.val)) 0 8 = (a.map (·.val)).getD 255
    ∧ field (word (slotByte a + 256 * b.val)) 8 8 = b.val := by
  have hb := b.isLt
  have ha : slotByte a ≤ 255 := by
    cases a with
    | none => exact le_rfl
    | some k => exact (Nat.le_of_lt k.isLt).trans (by decide)
  have hlt : slotByte a + 256 * b.val < 65536 := by omega
  rw [← slotByte_eq, field_word hlt, field_word hlt]
  omega

theorem optFrameWords_join (f : Option FrameNum) :
    joinWords ((optFrameWords f).getD 0 0) ((optFrameWords f).getD 1 0) = f.getD 0 := by
  cases f with
  | none => rfl
  | some f => exact joinWords_twoWords f

/-- The tenth word of a history record: the halt count, and whether the record is closed. -/
theorem histHalts_fields {n : Nat} (h : n ≤ 255) (b : Bool) : field (word (n + flagBit b 15)) 0 8 = n
    ∧ field (word (n + flagBit b 15)) 8 7 = 0 ∧ (word (n + flagBit b 15)).getLsbD 15 = b := by
  have hle : b.toNat ≤ 1 := Bool.toNat_le _
  have hb : decide (b.toNat = 1) = b := by cases b <;> rfl
  rw [flagBit_eq]
  have hlt : n + 2 ^ 15 * b.toNat < 65536 := by omega
  rw [field_word hlt, field_word hlt, bit_word hlt]
  refine ⟨by omega, by omega, ?_⟩
  conv_rhs => rw [← hb]
  rw [decide_eq_decide]
  omega

/-- A frame number field takes two words, absent or not. -/
theorem optFrameWords_eq (f : Option FrameNum) :
    optFrameWords f = [(optFrameWords f).getD 0 0, (optFrameWords f).getD 1 0] := by cases f <;> rfl

/-- The 12 words of a record one by one (11.3). -/
theorem histWords_eq (h : HistRecord) : h.words =
    [h.seq, word (h.cause.code + flagBit (h.mode == .blend) 4 + flagBit h.joint 5 + 256 * h.outcome.code),
     word (slotByte h.source + 256 * h.target.val), (twoWords h.label).getD 0 0, (twoWords h.label).getD 1 0,
     (twoWords h.start).getD 0 0, (twoWords h.start).getD 1 0, (optFrameWords h.endFrame).getD 0 0,
     (optFrameWords h.endFrame).getD 1 0, word (h.halts + flagBit h.endFrame.isSome 15), 0, 0] := by
  conv_lhs => rw [HistRecord.words, optFrameWords_eq]
  rfl

/-- Word i of the Transition History, 12 for each record (R82). -/
def historyWord (x : Txe) (i : Nat) : Word := ((x.history[i / 12]?).map fun h => h.words.getD (i % 12) 0).getD 0

theorem histWords_length (h : HistRecord) : h.words.length = 12 := by rw [histWords_eq]; rfl

/-- Settles O43: the words that READ finds (`readable`) for each target, and how the live tables and the history records stand
in them. -/
theorem readAnswersFromLiveContent : Obligations.ReadAnswersFromLiveContent := by
  refine ⟨fun m s hs => ?_, fun u => ⟨?_, ?_, fun j c e hc he => ⟨?_, fun t ht => ?_, fun hcommon => ?_, ?_⟩⟩,
    fun u => ⟨?_, ?_, fun j i e hi he => ?_⟩, fun h => ⟨histWords_length h, ?_⟩⟩
  · refine ⟨fun k hk => ⟨fun hempty => ?_, fun b l hregion => ?_⟩, fun h => ?_, fun h => ?_, fun h => ?_, fun h => ?_⟩
    · exact exec_read_empty hs (by rw [hk, readable_slot, hempty]; rfl)
    · exact exec_read_words (w := fun i => s.pst.store.read (b + i)) hs
        (by rw [hk, readable_slot, hregion, Option.map_some]) (by simp) fun i hi => slotWords_getD hregion hi
    · exact exec_read_words (w := fun i => s.ctu.tableWords.getD i 0) hs (readable_contactors h) rfl fun _ _ => rfl
    · exact exec_read_words (w := fun i => s.scu.tableWords.getD i 0) hs (readable_schedule h) rfl fun _ _ => rfl
    · exact exec_read_words (w := historyWord s.txe) hs (readable_history h) (length_flatMap_blocks histWords_length _)
        fun i _ => getD_flatMap_blocks (by decide) histWords_length _ i
    · exact exec_read_words (w := trimWord s.pst) hs (readable_trims h) (trimWords_length _) fun i hi => trimWords_getD _ hi
  · rw [Ctu.tableWords_eq, List.length_cons, length_flatMap_blocks (n := 3) (fun _ => rfl), Ctu.defined_length]
    omega
  · rw [Ctu.tableWords_eq, Ctu.defined_length]; rfl
  · exact Ctu.tableWords_entry hc he (r := 0) (by decide)
  · rw [show 2 + 3 * j = 1 + 1 + 3 * j from rfl, Ctu.tableWords_entry hc he (r := 1) (by decide), contactorWords, ht]
    rfl
  · rw [show 2 + 3 * j = 1 + 1 + 3 * j from rfl, Ctu.tableWords_entry hc he (r := 1) (by decide), contactorWords, hcommon]
    rfl
  · exact Ctu.tableWords_entry hc he (r := 2) (by decide)
  · rw [Scu.tableWords_eq, List.length_cons, length_flatMap_blocks (n := 3) (fun _ => rfl), Scu.entries_length]
    omega
  · rw [Scu.tableWords_eq, Scu.entries_length]; rfl
  · have hfirst : u.tableWords.getD (1 + 3 * j) 0 = word (i.val + flagBit e.enabled 8 + 4096 * e.mode.code) :=
      Scu.tableWords_entry hi he (r := 0) (by decide)
    obtain ⟨hnumber, henabled, hzero, hdefault, hmute, hblend⟩ := schedWord_fields i e
    rw [hfirst]
    exact ⟨hnumber, henabled, hzero, hdefault, hmute, hblend, Scu.tableWords_entry hi he (r := 1) (by decide),
      Scu.tableWords_entry hi he (r := 2) (by decide)⟩
  · obtain ⟨hcause, hmode, hjoint, houtcome⟩ := histWord_fields h
    obtain ⟨hsource, htarget⟩ := histSlots_fields h.source h.target
    rw [histWords_eq]
    have cause : ∀ {a : Cause}, h.cause = a → _ = a.code := fun ha => hcause.trans (congrArg Cause.code ha)
    have outcome : ∀ {a : HistOutcome}, h.outcome = a → _ = a.code := fun ha => houtcome.trans (congrArg HistOutcome.code ha)
    exact ⟨rfl, cause, cause, cause, cause, cause, hmode, hjoint, outcome, outcome, outcome, outcome, hsource, htarget,
      joinWords_twoWords _, joinWords_twoWords _, optFrameWords_join _, fun hn => histHalts_fields hn _, rfl, rfl⟩

end Sys2Proof.Machine
end

section
/-! SUPPORT. The tables that replace the live ones, and the completion of a check by its outcome. -/
namespace Sys2Proof.Machine

/-! ## The end of a check (R146, R147) -/

/-! ### The conditions and sizes examined (R52, R10) -/

section
variable {s : State} {w : Nat → Word}

theorem replacement_wrongState_iff : replacement w s = .wrongState ↔ ¬ OffAir s := by
  refine ⟨fun h hair => ?_, replacement_onAir⟩
  cases hm : missingReference w s with
  | none => rw [replacement_allowed hair hm] at h; cases h
  | some p => rw [replacement_missing (k := p.1) (c := p.2) hair hm] at h; cases h

theorem replacement_allowed_iff : replacement w s = .allowed ↔ OffAir s ∧ missingReference w s = none := by
  refine ⟨fun h => ?_, fun h => replacement_allowed h.1 h.2⟩
  by_cases hair : OffAir s
  case neg => rw [replacement_onAir hair] at h; cases h
  case pos =>
    cases hm : missingReference w s with
    | none => exact ⟨hair, rfl⟩
    | some p => rw [replacement_missing (k := p.1) (c := p.2) hair hm] at h; cases h

theorem replacement_referenced_iff {k : Slot} {c : ContactorIx} :
    replacement w s = .referenced k c ↔ OffAir s ∧ missingReference w s = some (k, c) := by
  refine ⟨fun h => ?_, fun h => replacement_missing h.1 h.2⟩
  by_cases hair : OffAir s
  case neg => rw [replacement_onAir hair] at h; cases h
  case pos =>
    cases hm : missingReference w s with
    | none => rw [replacement_allowed hair hm] at h; cases h
    | some p =>
      rw [replacement_missing (k := p.1) (c := p.2) hair hm] at h
      cases h
      exact ⟨hair, rfl⟩

variable {x : Target} {n : Nat}

theorem contentSize_table (h : 16 ≤ x.val) : contentSize x n w = some (1 + 3 * (w 0).toNat) := if_neg (by omega)

theorem contentSize_short (h : x.val < 16) (hn : n ≤ countOffset w) : contentSize x n w = none := by
  rw [contentSize, if_pos h, if_pos hn]

theorem contentSize_slot (h : x.val < 16) (hn : countOffset w < n) :
    contentSize x n w = some (countOffset w + 1 + (w (countOffset w)).toNat) := by
  rw [contentSize, if_pos h, if_neg (by omega)]

theorem targetItems_slot (s : State) (k : Slot) (w : Nat → Word) : targetItems s (slotTarget k) w = patternItems k s.ctu w := by
  rw [targetItems, targetSlot_slotTarget]

theorem targetItems_table (h : 16 ≤ x.val) :
    targetItems s x w = if x.val = 16 then contactorTableItems w else scheduleTableItems w := by
  rw [targetItems, targetSlot_table h]

end

/-! ### Staged entries -/

section
variable {β : Type} {f : Nat → β} {key : β → Nat} {n m j : Nat}

theorem find?_staged_none (h : ∀ i < n, key (f i) ≠ m) : ((List.range n).map f).find? (fun b => key b == m) = none := by
  simpa [List.find?_eq_none] using h

/-- The first staged entry with a number. -/
theorem find?_staged_some (hj : j < n) (hkey : key (f j) = m) (hlow : ∀ i < j, key (f i) ≠ m) :
    ((List.range n).map f).find? (fun b => key b == m) = some (f j) := by
  rw [List.find?_map, Option.map_eq_some_iff]
  refine ⟨j, List.find?_range_eq_some.2 ⟨beq_iff_eq.2 hkey, List.mem_range.2 hj, fun i hi => ?_⟩, rfl⟩
  rw [Function.comp_apply, beq_eq_false_iff_ne.2 (hlow i hi)]
  rfl

end

/-! ### The Contactor Table replaced (R53) -/

section
variable {s : State} {w : Nat → Word}

theorem replacedEntry_removed {u : ContactorUnit} {c : ContactorIx}
    (h : ∀ j < min (w 0).toNat 24, (w (1 + 3 * j)).toNat ≠ c.val) : replacedEntry u c (stagedContactors w) = none := by
  rw [replacedEntry, stagedContactors, find?_staged_none (key := StagedContactor.number) h]
  rfl

theorem replacedEntry_staged {u : ContactorUnit} {c : ContactorIx} {j : Nat} (hj : j < min (w 0).toNat 24)
    (hc : (w (1 + 3 * j)).toNat = c.val) (hlow : ∀ i < j, (w (1 + 3 * i)).toNat ≠ c.val) :
    replacedEntry u c (stagedContactors w) = some
      { assoc := assocOf (w (2 + 3 * j)), limit := (w (3 + 3 * j)).toNat, commanded := keptPosition u.entry,
        state := if u.reading.agrees (keptPosition u.entry) then standing (keptPosition u.entry) else .disagree } := by
  rw [replacedEntry, stagedContactors, find?_staged_some (key := StagedContactor.number) hj hc hlow]
  rfl

theorem keptPosition_eq (e : Option Contactor) : keptPosition e = (e.map (·.commanded)).getD .opened := by cases e <;> rfl

theorem leftCode_eq (e : Option Contactor) : leftCode e = (e.map fun x => x.state.code).getD 0 := by cases e <;> rfl

theorem assocOf_tower {v : Word} {u : TowerIx} (h : v.toNat = u.val) : assocOf v = .tower u := by
  have hu := u.isLt
  rw [assocOf, dif_pos (by omega)]
  exact congrArg Assoc.tower (Fin.ext h)

theorem assocOf_common {v : Word} (h : 8 ≤ v.toNat) : assocOf v = .common := dif_neg (by omega)

/-- Operations that each change CMU alone change CMU alone. -/
theorem foldl_setCmu {α : Type} {f : State → α → State} {g : Cmu → α → Cmu} (h : ∀ u a, f (s.setCmu u) a = s.setCmu (g u a))
    (l : List α) (u : Cmu) : l.foldl f (s.setCmu u) = s.setCmu (l.foldl g u) := by
  induction l generalizing u with
  | nil => rfl
  | cons a l ih => rw [List.foldl_cons, h, ih, List.foldl_cons]

/-- The notice that contactor c is derived as DISAGREE in the table of new, entering the Report Queue (R53). -/
def enterDerived (s : State) (new : Ctu) (u : Cmu) (c : ContactorIx) : Cmu :=
  match new.units[c].entry with
  | some e => if e.state = .disagree then u.enter (.notice .contactorDisagree s.stamp (subjectOf c.val) none
        [word e.commanded.code, word s.ctu.units[c].reading.code,
         word ((s.ctu.units[c].entry.map fun x => x.state.code).getD 0)])
      else u
  | none => u

/-- The same as an operation of the unit, with the table of new in the place of that of old. -/
def raiseDerived (old new : Ctu) (s : State) (c : ContactorIx) : State :=
  match new.units[c].entry with
  | some e => if e.state = .disagree then
      raiseDisagree c e.commanded old.units[c].reading (leftCode old.units[c].entry) false s
    else s
  | none => s

theorem raiseDerived_eq (s : State) (new : Ctu) (u : Cmu) (c : ContactorIx) :
    raiseDerived s.ctu new ((s.setCtu new).setCmu u) c = (s.setCtu new).setCmu (enterDerived s new u c) := by
  unfold raiseDerived enterDerived
  cases new.units[c].entry with
  | none => rfl
  | some e =>
    by_cases he : e.state = .disagree
    · simp only [he, if_true, ← leftCode_eq]
      rfl
    · simp only [he, if_false]

theorem foldl_raiseDerived (s : State) (new : Ctu) (l : List ContactorIx) :
    l.foldl (raiseDerived s.ctu new) (s.setCtu new) = (s.setCtu new).setCmu (l.foldl (enterDerived s new) s.cmu) :=
  foldl_setCmu (raiseDerived_eq s new) l s.cmu

/-- A replacement puts the table in place and raises the notices of the contactors in DISAGREE. -/
theorem replaceContactors_eq (w : Nat → Word) (s : State) : replaceContactors w s
    = (s.setCtu (s.ctu.replaced w)).setCmu (allContactors.foldl (enterDerived s (s.ctu.replaced w)) s.cmu) := by
  have hraise : replaceContactors w s
      = allContactors.foldl (raiseDerived s.ctu (s.ctu.replaced w)) (s.setCtu (s.ctu.replaced w)) := by
    unfold replaceContactors
    extract_lets old new
    have hnew : s.ctu.replaced w = new := rfl
    rw [hnew]
    clear_value new
    exact List.foldl_ext _ _ _ fun t c _ => rfl
  rw [hraise, foldl_raiseDerived]

theorem replaceContactors_ctu (w : Nat → Word) (s : State) : (replaceContactors w s).ctu = s.ctu.replaced w := by
  rw [replaceContactors_eq, State.setCmu_ctu, State.setCtu_ctu]

theorem replaceContactors_cmu (w : Nat → Word) (s : State) : (replaceContactors w s).cmu
    = allContactors.foldl (enterDerived s (replaceContactors w s).ctu) s.cmu := by
  rw [replaceContactors_ctu, replaceContactors_eq, State.setCmu_cmu]

theorem Ctu.replaced_rest (u : Ctu) (w : Nat → Word) : u.replaced w = { u with units := (u.replaced w).units } := by
  unfold Ctu.replaced
  rfl

/-- A replacement changes the contactors and CMU alone. -/
theorem replaceContactors_rest (w : Nat → Word) (s : State) : replaceContactors w s
    = (s.setCtu { s.ctu with units := (replaceContactors w s).ctu.units }).setCmu (replaceContactors w s).cmu := by
  rw [replaceContactors_ctu, ← Ctu.replaced_rest, replaceContactors_cmu, replaceContactors_ctu]
  exact replaceContactors_eq w s

end

/-! ### The Schedule Table replaced (R128) -/

section
variable {s : State} {w : Nat → Word}

/-- The notice of an entry that a replacement discards: MISSED (6), TABLE (9), with the target slot of the table replaced. -/
def tableNotice (s : State) (o : Occurrence) : Record :=
  .notice .scheduleDue s.stamp (subjectOf o.entry.val) none
    [word (6 + 256 * 9), word (slotByte (s.scu.table[o.entry].map (·.target))), word o.date.days, 0]

/-- The deferred and the held-due entry are discarded in that order. -/
theorem discardForTable_both (s : State) : discardForTable s.scu.held (discardForTable s.scu.deferred s)
    = s.setCmu ((s.scu.deferred.toList ++ s.scu.held.toList).foldl (fun u o => u.enter (tableNotice s o)) s.cmu) := by
  cases s.scu.deferred with
  | none => cases s.scu.held <;> rfl
  | some o => cases s.scu.held <;> rfl

theorem replaceSchedule_eq (w : Nat → Word) (s : State) : replaceSchedule w s
    = (s.setScu { s.scu with
        deferred := none, held := none
        table := Vector.ofFn fun i => ((stagedEntries w).find? fun x => x.1 == i.val).map (·.2) }).setCmu
      ((s.scu.deferred.toList ++ s.scu.held.toList).foldl (fun u o => u.enter (tableNotice s o)) s.cmu) := by
  rw [replaceSchedule, discardForTable_both]
  rfl

theorem replacedTable_get (w : Nat → Word) (s : State) (i : EntryIx) : (replaceSchedule w s).scu.table[i]
    = ((stagedEntries w).find? fun x => x.1 == i.val).map (·.2) := by
  rw [replaceSchedule_eq]
  exact ofFn_get ..

theorem replacedTable_removed {i : EntryIx} (h : ∀ j < min (w 0).toNat 48, field (w (1 + 3 * j)) 0 8 ≠ i.val) :
    (replaceSchedule w s).scu.table[i] = none := by
  rw [replacedTable_get, stagedEntries, find?_staged_none (key := Prod.fst) h]
  rfl

theorem replacedTable_staged {i : EntryIx} {j : Nat} (hj : j < min (w 0).toNat 48) (hi : field (w (1 + 3 * j)) 0 8 = i.val)
    (hlow : ∀ k < j, field (w (1 + 3 * k)) 0 8 ≠ i.val) : (replaceSchedule w s).scu.table[i] = some (stagedEntry w j).2 := by
  rw [replacedTable_get, stagedEntries, find?_staged_some (key := Prod.fst) hj hi hlow]
  rfl

end

/-! ### The outcome of a check (R146) -/

section
variable {s t : State} {x : Target} {c : Claim} {e : Word} {n : Nat}

/-- The content has the length claimed, by the words written and by the size found. -/
def Complete (s : State) (x : Target) (c : Claim) : Prop :=
  c.committed = c.length ∧ contentSize x c.committed (regionWord s x) = some c.length

theorem checkOutcome_value (h : computedCheck s x c.length ≠ e) : checkOutcome s x c e = .checkFail := if_pos h

theorem checkOutcome_length (h : computedCheck s x c.length = e) (hl : ¬ Complete s x c) :
    checkOutcome s x c e = .badLength (contentSize x c.committed (regionWord s x)) := by
  rw [checkOutcome, if_neg (not_not.2 h), if_pos (not_and_or.1 hl)]

theorem checkOutcome_item (h : computedCheck s x c.length = e) (hl : Complete s x c) {i : Item}
    (hi : firstFailure (targetItems s x (regionWord s x)) = some i) : checkOutcome s x c e = .badItem i := by
  rw [checkOutcome, if_neg (not_not.2 h), if_neg fun hn => not_and_or.2 hn hl, hi]

theorem checkOutcome_passed (h : computedCheck s x c.length = e) (hl : Complete s x c)
    (hi : firstFailure (targetItems s x (regionWord s x)) = none) :
    checkOutcome s x c e = replacementOutcome x (regionWord s x) s := by
  rw [checkOutcome, if_neg (not_not.2 h), if_neg fun hn => not_and_or.2 hn hl, hi]

theorem replacementOutcome_wrongState (h : x.val = 16) {w : Nat → Word} (hr : replacement w s = .wrongState) :
    replacementOutcome x w s = .wrongState := by rw [replacementOutcome, if_pos h, hr]

theorem replacementOutcome_referenced (h : x.val = 16) {w : Nat → Word} {k : Slot} {m : ContactorIx}
    (hr : replacement w s = .referenced k m) : replacementOutcome x w s = .referenced k m := by
  rw [replacementOutcome, if_pos h, hr]

theorem replacementOutcome_allowed (h : x.val = 16) {w : Nat → Word} (hr : replacement w s = .allowed) :
    replacementOutcome x w s = .valid := by rw [replacementOutcome, if_pos h, hr]

theorem replacementOutcome_other (h : x.val ≠ 16) (w : Nat → Word) : replacementOutcome x w s = .valid := if_neg h

/-! ### What the completion does (R147) -/

theorem exec_checkCompletion (h : s.running = true) (x : Target) :
    exec (.checkCompletion x) s = .next (completeCheck x s) := by
  show Host.Outcome.next (whileRunning (completeCheck x) s) = _
  rw [whileRunning, h]; rfl

theorem completeCheck_unclaimed (h : s.ldu.claims[x] = none) : completeCheck x s = s := by rw [completeCheck, h]

/-- No check runs while LOADING (log 2). -/
theorem completeCheck_loading (hc : s.ldu.claims[x] = some c) (hp : c.phase = .loading n) : completeCheck x s = s := by
  rw [completeCheck, hc]
  dsimp only
  rw [hp]

theorem completeCheck_checking (hc : s.ldu.claims[x] = some c) (hp : c.phase = .checking e n) {o : CheckOutcome}
    (ho : checkOutcome s x c e = o) : completeCheck x s
      = (actOnCheck x c (computedCheck s x c.length) o s).raise .checkDone (subjectOf x.val)
          (checkDetails s c e (computedCheck s x c.length) o) := by
  subst ho
  rw [completeCheck, hc]
  dsimp only
  rw [hp]

/-- t is s with target x LOADING again from its committed offset (R147). -/
def Reopened (x : Target) (c : Claim) (s t : State) : Prop :=
  t = (s.setPst { s.pst with dir := t.pst.dir }).setLdu { s.ldu with claims := t.ldu.claims }
  ∧ t.ldu.claims[x] = some { c with phase := .loading 0, running := c.committed }
  ∧ (∀ y, y ≠ x → t.ldu.claims[y] = s.ldu.claims[y])
  ∧ (∀ (k : Slot) b l h, x = slotTarget k → s.pst.dir[k] = .checking b l h → t.pst.dir[k] = .loading b l h)
  ∧ ∀ k : Slot, x ≠ slotTarget k → t.pst.dir[k] = s.pst.dir[k]

theorem reopened (x : Target) (c : Claim) (s : State) : Reopened x c s
    ((onSlot x Pst.reopen s).setClaim x (some { c with phase := .loading 0, running := c.committed })) := by
  have hslot : ∀ (k : Slot) b l h, x = slotTarget k → s.pst.dir[k] = .checking b l h →
      (onSlot x Pst.reopen s).pst.dir[k] = .loading b l h := by
    rintro k b l h rfl hdir
    have hentry : s.pst.reopen k = s.pst.setEntry k (.loading b l h) := by
      unfold Pst.reopen
      rw [hdir]
    rw [onSlot_slot, hentry]
    exact (setEntry_dir ..).trans (if_pos rfl)
  have hslots : ∀ k : Slot, x ≠ slotTarget k → (onSlot x Pst.reopen s).pst.dir[k] = s.pst.dir[k] := fun k hk =>
    onSlot_others reopen_entryOnly hk s
  rw [onSlot_dirOnly reopen_entryOnly]
  generalize (onSlot x Pst.reopen s).pst.dir = dir at hslot hslots
  refine ⟨rfl, ?_, fun y hy => ?_, hslot, hslots⟩
  · rw [State.setClaim_ldu, setAt_get, if_pos rfl]
  · rw [State.setClaim_ldu, setAt_get, if_neg hy]
    rfl

/-- Every outcome but VALID makes the target LOADING again, and is named by CHECK_DONE. -/
theorem completeCheck_failed (h : s.running = true) (hc : s.ldu.claims[x] = some c) (hp : c.phase = .checking e n)
    {o : CheckOutcome} (ho : checkOutcome s x c e = o) (hne : o ≠ .valid) :
    ∃ t, exec (.checkCompletion x) s
        = .next (t.raise .checkDone (subjectOf x.val) (checkDetails s c e (computedCheck s x c.length) o))
      ∧ Reopened x c s t := by
  refine ⟨_, ?_, reopened x c s⟩
  rw [exec_checkCompletion h, completeCheck_checking hc hp ho, actOnCheck, if_neg hne]

/-- VALID makes the content live and the target unclaimed, and is named by CHECK_DONE. -/
theorem completeCheck_valid (h : s.running = true) (hc : s.ldu.claims[x] = some c) (hp : c.phase = .checking e n)
    (ho : checkOutcome s x c e = .valid) (hlive : makeLive x (computedCheck s x c.length) s = t) :
    exec (.checkCompletion x) s = .next ((t.setClaim x none).raise .checkDone (subjectOf x.val)
      [1, computedCheck s x c.length, 0, 0]) := by
  rw [exec_checkCompletion h, completeCheck_checking hc hp ho, actOnCheck, if_pos rfl, hlive]
  rfl

theorem makeLive_contactors (h : x.val = 16) (v : Word) : makeLive x v s
    = (replaceContactors (regionWord s x) s).setLdu { s.ldu with staging16 := [] } := by
  have hldu := (replaceContactors_keeps s (regionWord s x)).ldu
  rw [makeLive, if_neg (by omega), if_pos h]
  dsimp only
  rw [hldu, Ldu.clearStaging, if_pos h]

theorem makeLive_schedule (h : x.val = 17) (v : Word) : makeLive x v s
    = (replaceSchedule (regionWord s x) s).setLdu { s.ldu with staging17 := [] } := by
  have hldu := (replaceSchedule_keeps s (regionWord s x)).ldu
  rw [makeLive, if_neg (by omega), if_neg (by omega)]
  dsimp only
  rw [hldu, Ldu.clearStaging, if_neg (by omega), if_pos h]

/-- A CHECKING slot becomes VALID with the label of its record (R6). -/
theorem makeLive_slot {k : Slot} {b l : Nat} {u : BitVec 3} (hdir : s.pst.dir[k] = .checking b l u) (v : Word) :
    makeLive (slotTarget k) v s = s.setPst { s.pst with dir := setAt s.pst.dir k (.valid b l v
      (joinWords (regionWord s (slotTarget k) 1) (regionWord s (slotTarget k) 2))) } := by
  have hentry : s.pst.accept v k = s.pst.setEntry k (.valid b l v (recLabel (s.pst.slotWord k))) := by
    unfold Pst.accept
    rw [hdir]
  rw [makeLive, if_pos (show (slotTarget k).val < 16 from k.isLt), onSlot_slot, hentry, regionWord_slot, regionWord_slot]
  rfl

end

/-- Settles O44: each function of the completion by its own rule, then the outcomes of R146 in order. -/
theorem checkCompletionMakesContentLive : Obligations.CheckCompletionMakesContentLive := by
  unfold Obligations.CheckCompletionMakesContentLive
  refine ⟨fun w s => ⟨replacement_wrongState_iff, replacement_allowed_iff, fun k c => replacement_referenced_iff⟩,
    fun x n w => ?size, ⟨rfl, fun n hn => if_pos hn⟩,
    fun x w s => ⟨fun k hk => hk ▸ targetItems_slot s k w, fun hx => ?contactorItems, fun hx => ?scheduleItems⟩,
    fun x c s => rfl,
    fun w s => ⟨?contactorsRest, fun c => ⟨?contactorsUnit, fun hno => ?contactorRemoved, fun j hj hc hlow => ?contactorStaged⟩,
      ?contactorsCmu⟩,
    fun w s => ⟨?scheduleRest, fun i => ⟨replacedTable_removed, fun j hj hi hlow => ?entryStaged⟩, ?scheduleCmu⟩,
    fun x s hrun => ⟨fun hc => ?unclaimed, fun c hc => ⟨fun n hp => ?loading, fun e n hp => ?checking⟩⟩⟩
  case size =>
    rw [← countOffset_eq]
    exact ⟨contentSize_table, contentSize_short, contentSize_slot⟩
  case contactorItems => rw [targetItems_table (by omega), if_pos hx]
  case scheduleItems => rw [targetItems_table (by omega), if_neg (by omega)]
  case contactorsRest => exact replaceContactors_rest w s
  case contactorsUnit => rw [replaceContactors_unit]
  case contactorRemoved => rw [replaceContactors_unit]; exact replacedEntry_removed hno
  case contactorStaged =>
    rw [replaceContactors_unit]
    refine ⟨_, replacedEntry_staged hj hc hlow, fun u => assocOf_tower, assocOf_common, rfl, keptPosition_eq _,
      fun hagree => if_pos hagree, fun hagree => if_neg ?_⟩
    rw [hagree]
    exact Bool.false_ne_true
  case contactorsCmu =>
    rw [replaceContactors_cmu]
    generalize (replaceContactors w s).ctu = new
    exact List.foldl_ext _ _ _ fun u c _ => rfl
  case scheduleRest => rw [replaceSchedule_eq]; rfl
  case entryStaged =>
    refine ⟨_, replacedTable_staged hj hi hlow, beq_iff_eq, rfl, rfl, ?_, rfl, fun h => ?_, fun h => ?_, fun h => ?_⟩
    · exact Nat.mod_eq_of_lt (field_lt ..)
    · exact congrArg reqMode h
    · exact congrArg reqMode h
    · exact congrArg reqMode h
  case scheduleCmu => rw [replaceSchedule_eq]; rfl
  case unclaimed => rw [exec_checkCompletion hrun, completeCheck_unclaimed hc]
  case loading => rw [exec_checkCompletion hrun, completeCheck_loading hc hp]
  case checking =>
    have hfail := fun o ho hne => completeCheck_failed (o := o) hrun hc hp ho hne
    have hvalid := fun ho t hlive => completeCheck_valid (t := t) hrun hc hp ho hlive
    refine ⟨fun hv => hfail _ (checkOutcome_value hv) nofun, fun hv =>
      ⟨fun hl => hfail _ (checkOutcome_length hv hl) nofun, fun hl =>
        ⟨fun i hi => hfail _ (checkOutcome_item hv hl hi) nofun, fun hi => ?_⟩⟩⟩
    have hpassed := checkOutcome_passed hv hl hi
    refine ⟨fun hx hr => hfail _ (hpassed.trans (replacementOutcome_wrongState hx hr)) nofun,
      fun k m hx hr => hfail _ (hpassed.trans (replacementOutcome_referenced hx hr)) nofun, fun hx hr => ?_,
      fun hx => ?_, fun k b l u hk hdir => ?_⟩
    · rw [hvalid (hpassed.trans (replacementOutcome_allowed hx hr)) _ (makeLive_contactors hx _), hx]
      rfl
    · rw [hvalid (hpassed.trans (replacementOutcome_other (by omega) _)) _ (makeLive_schedule hx _), hx]
      rfl
    · subst hk
      exact hvalid (hpassed.trans (replacementOutcome_other k.isLt.ne _)) _ (makeLive_slot hdir _)

end Sys2Proof.Machine
end

section
/-! SUPPORT. The queues of CMU and the laws of the receive state under every command. -/
namespace Sys2Proof.Machine

/-! ## The laws of the queues and of the receive state (R154, R155, R160 to R162, R165, R172) -/

/-! ### Operations that leave RIF alone -/

/-- s stands after operations on o that leave RIF, DSY's pace and the Command Queue alone and keep the bound of the Report
Queue. -/
structure RingQuiet (o s : State) : Prop where
  rif       : s.rif = o.rif
  localPace : s.dsy.localPace = o.dsy.localPace
  queue     : s.cmu.queue = o.cmu.queue
  reports   : o.cmu.reports.length ≤ 32 → s.cmu.reports.length ≤ 32

namespace RingQuiet

variable {o s t : State}

theorem refl (s : State) : RingQuiet s s := ⟨rfl, rfl, rfl, id⟩

theorem trans (h : RingQuiet o s) (k : RingQuiet s t) : RingQuiet o t :=
  ⟨k.rif.trans h.rif, k.localPace.trans h.localPace, k.queue.trans h.queue, k.reports ∘ h.reports⟩

theorem ite {p : Prop} [Decidable p] (h : RingQuiet o s) (k : RingQuiet o t) : RingQuiet o (if p then s else t) := by
  split
  · exact h
  · exact k

theorem foldl {α : Type} {f : State → α → State} (hf : ∀ s a, RingQuiet o s → RingQuiet o (f s a)) (l : List α)
    (h : RingQuiet o s) : RingQuiet o (l.foldl f s) := by
  induction l generalizing s with
  | nil => exact h
  | cons a l ih => exact ih (hf s a h)

/-- A shared operation that writes no drive frame. -/
theorem keeps (h : RingQuiet o s) (k : Keeps s t) (d : OrdersOnly s t) : RingQuiet o t :=
  h.trans ⟨k.rif, d.dsy.localPace, k.queue, k.reports⟩

/-- Loading. -/
theorem loads (h : RingQuiet o s) (k : LoadsOnly s t) : RingQuiet o t := by
  rw [k]
  exact ⟨h.rif, h.localPace, h.queue, h.reports⟩

theorem setPst (h : RingQuiet o s) (b : Pst) : RingQuiet o (s.setPst b) := ⟨h.rif, h.localPace, h.queue, h.reports⟩
theorem setLdu (h : RingQuiet o s) (b : Ldu) : RingQuiet o (s.setLdu b) := ⟨h.rif, h.localPace, h.queue, h.reports⟩
theorem setTxe (h : RingQuiet o s) (b : Txe) : RingQuiet o (s.setTxe b) := ⟨h.rif, h.localPace, h.queue, h.reports⟩
theorem setArray (h : RingQuiet o s) (a : ArrayState) : RingQuiet o (s.setArray a) := h.setTxe _
theorem setArmed (h : RingQuiet o s) (a : Option Armed) : RingQuiet o (s.setArmed a) := h.setTxe _
theorem setCtu (h : RingQuiet o s) (b : Ctu) : RingQuiet o (s.setCtu b) := ⟨h.rif, h.localPace, h.queue, h.reports⟩
theorem setMon (h : RingQuiet o s) (b : Mon) : RingQuiet o (s.setMon b) := ⟨h.rif, h.localPace, h.queue, h.reports⟩
theorem setScu (h : RingQuiet o s) (b : Scu) : RingQuiet o (s.setScu b) := ⟨h.rif, h.localPace, h.queue, h.reports⟩

theorem setDsy (h : RingQuiet o s) {d : Dsy} (hd : d.localPace = s.dsy.localPace) : RingQuiet o (s.setDsy d) :=
  h.trans ⟨rfl, hd, rfl, id⟩

theorem raise (h : RingQuiet o s) (k : NoticeKind) (b : Option (BitVec 8)) (d : List Word) : RingQuiet o (s.raise k b d) :=
  h.keeps (raise_keeps ..) ((OrdersOnly.refl s).raise ..)

theorem withdraw (h : RingQuiet o s) (r : WithdrawReason) : RingQuiet o (withdraw r s) :=
  h.keeps (withdraw_keeps ..) ((OrdersOnly.refl s).withdraw r)

/-! ### Pins and timers -/

theorem ilkLineOpen (s : State) : RingQuiet s (ilkLineOpen s) := by
  have hline : RingQuiet s (s.setDsy s.dsy.ilkOpens) := (refl s).setDsy rfl
  refine ite ?_ hline
  have hforced := ((hline.setDsy (d := { s.dsy.ilkOpens with ilkClosed := false }) rfl).raise .interlockOpened none []).setDsy
    (d := ({ s.dsy.ilkOpens with ilkClosed := false } : Dsy).forceZero (BitVec.allOnes 8)) rfl
  exact (hforced.keeps (takeInterlock_keeps _) (OrdersOnly.refl _).takeInterlock).keeps (takeAtRest_keeps _)
    (OrdersOnly.refl _).takeAtRest

theorem ilkQualified (s : State) : RingQuiet s (ilkQualified s) := ite (((refl s).setDsy (by rfl)).raise ..) (refl s)

theorem rdyDebounced (i : TowerIx) (s : State) : RingQuiet s (rdyDebounced i s) := by
  have h : RingQuiet s (s.setDsy (s.dsy.rdySettled i)) := (refl s).setDsy rfl
  exact ite (ite (h.raise ..) ((h.raise ..).keeps (takeCabinetLoss_keeps ..) ((OrdersOnly.refl _).takeCabinetLoss i))) (refl s)

theorem auxDebounced (c : ContactorIx) (i : AuxInput) (s : State) : RingQuiet s (auxDebounced c i s) :=
  (refl s).keeps auxDebounced_keeps ((OrdersOnly.refl s).auxDebounced c i)

theorem travelExpired (c : ContactorIx) (s : State) : RingQuiet s (travelExpired c s) := by
  unfold Machine.travelExpired
  split
  · exact refl s
  · exact ite ((((refl s).setCtu _).raise ..).keeps (takeStuck_keeps ..) ((OrdersOnly.refl _).takeStuck c)) (refl s)

theorem settleExpired (s : State) : RingQuiet s (settleExpired s) := by
  unfold Machine.settleExpired
  split
  · exact (refl s).keeps (afterSettle_keeps ..) ((OrdersOnly.refl s).afterSettle _)
  all_goals exact refl s

theorem gateExpired (s : State) : RingQuiet s (gateExpired s) := by
  unfold Machine.gateExpired
  split
  · exact (refl s).keeps (halt_keeps ..) ((OrdersOnly.refl s).halt ..)
  all_goals exact refl s

theorem absenceExpiry (s : State) : RingQuiet s (absenceExpiry s) := ite (((refl s).setMon _).raise ..) (refl s)

theorem staleExpiry (s : State) : RingQuiet s (staleExpiry s) := by
  unfold Machine.staleExpiry
  split
  · exact ((refl s).setScu _).raise ..
  all_goals exact refl s

theorem localFrame (s : State) : RingQuiet s (localFrame s) :=
  ite (((refl s).setDsy (by rfl)).keeps (takeAtRest_keeps _) (OrdersOnly.refl _).takeAtRest) (refl s)

/-! ### Monitor records (R105, R110) -/

theorem trimTower (h : RingQuiet o s) (w : Nat → Word) (k : Slot) (t : TowerIx) (r : Nat) (m : Int) :
    RingQuiet o (trimTower w k t r m s) := by
  have hlimit : ∀ a b, RingQuiet o (noticeLimit w k t a b s) := by
    intro a b
    unfold noticeLimit
    split
    · exact h
    · exact ite h ((h.setMon _).raise ..)
  exact ite h ((hlimit ..).setPst _)

theorem evaluate (h : RingQuiet o s) (rec : MonRecord) : RingQuiet o (evaluate rec s) := by
  unfold Machine.evaluate
  split
  · exact h
  · refine ite (foldl (fun u t hu => ?_) _ h) h
    exact ite ((hu.keeps (judgeTower_keeps ..) ((OrdersOnly.refl u).judgeTower ..)).trimTower ..) hu

theorem takeRecord (rx : Rx) (s : State) : RingQuiet s (takeRecord rx s) := by
  have taken : ∀ rec : MonRecord, RingQuiet s (recordTaken rec s) := fun rec =>
    ite ((refl s).setMon _) (((refl s).setMon _).raise ..)
  unfold Machine.takeRecord
  split
  · exact refl s
  · exact ite (taken _) ((taken _).evaluate _)

/-! ### Checks and lapses (R140, R147) -/

theorem lapse (x : Target) (s : State) : RingQuiet s (lapse x s) := by
  unfold Machine.lapse
  split
  · exact refl s
  · exact ite (refl s) (((refl s).loads (.abandon x s)).raise ..)

theorem makeLive (x : Target) (v : Word) (s : State) : RingQuiet s (makeLive x v s) := by
  have htable := ite (p := x.val = 16)
    ((refl s).keeps (replaceContactors_keeps ..) ((OrdersOnly.refl s).replaceContactors (regionWord s x)))
    ((refl s).keeps (replaceSchedule_keeps ..) ((OrdersOnly.refl s).replaceSchedule (regionWord s x)))
  exact ite ((refl s).loads ((LoadsOnly.refl s).onSlot ..)) (htable.setLdu _)

theorem completeCheck (x : Target) (s : State) : RingQuiet s (completeCheck x s) := by
  unfold Machine.completeCheck
  split
  · exact refl s
  · split
    · exact refl s
    · exact (ite ((makeLive x _ s).setLdu _) ((refl s).loads (((LoadsOnly.refl s).onSlot ..).setClaim ..))).raise ..

/-! ### Commands -/

theorem switchBody (m : Mgmt) (s : State) : RingQuiet s (switchBody m s).1 := by
  unfold Machine.switchBody
  dsimp only
  split
  · exact refl s
  · split
    · exact refl s
    next f _ =>
      split
      · exact refl s
      · have h := ((refl s).withdraw .replaced).setArmed (some (armedOf (switchParams m) f))
        unfold arm
        dsimp only
        split
        · exact h.setArray _
        all_goals exact h

theorem withdrawBody (m : Mgmt) (s : State) : RingQuiet s (withdrawBody m s).1 := by
  unfold Machine.withdrawBody
  split
  · exact refl s
  · exact (refl s).setArmed none

theorem goBody (m : Mgmt) (s : State) : RingQuiet s (goBody m s).1 := by
  unfold Machine.goBody
  split
  · split
    · exact refl s
    · exact (refl s).setArray _
  all_goals exact refl s

theorem continueBody (m : Mgmt) (s : State) : RingQuiet s (continueBody m s).1 := by
  unfold Machine.continueBody
  split
  · exact refl s
  · split_ifs
    · exact refl s
    · exact refl s
    · exact (((refl s).withdraw .replaced).keeps (enterSwitching_keeps ..) ((OrdersOnly.refl _).enterSwitching _)).raise ..

theorem retreatBody (m : Mgmt) (s : State) : RingQuiet s (retreatBody m s).1 := by
  unfold Machine.retreatBody
  split
  · exact refl s
  · split
    · exact refl s
    · split
      · exact refl s
      · split
        · exact refl s
        · exact (((refl s).withdraw .replaced).setTxe _).keeps (launch_keeps ..) ((OrdersOnly.refl _).launch ..)

theorem muteBody (m : Mgmt) (s : State) : RingQuiet s (muteBody m s).1 :=
  ((refl s).withdraw .mute).keeps (muteArray_keeps ..) ((OrdersOnly.refl _).muteArray _)

theorem moveBody (m : Mgmt) (s : State) : RingQuiet s (moveBody m s).1 := by
  unfold Machine.moveBody
  split
  · exact (refl s).keeps (moveRequest_keeps ..) ((OrdersOnly.refl s).moveRequest ..)
  · exact refl s

theorem trimClearBody (m : Mgmt) (s : State) : RingQuiet s (trimClearBody m s).1 :=
  ite (((refl s).setPst _).setMon _) ((refl s).setPst _)

theorem scheduleHoldBody (m : Mgmt) (s : State) : RingQuiet s (scheduleHoldBody m s).1 := by
  unfold Machine.scheduleHoldBody
  split
  · exact (refl s).keeps (holdOn_keeps _) (OrdersOnly.refl s).holdOn
  · exact (refl s).keeps (holdOff_keeps ..) ((OrdersOnly.refl s).holdOff _)

end RingQuiet
end Sys2Proof.Machine
end

section
/-! SUPPORT. The receive state under sample frames, and the laws of the queues and the ring under every command. -/
namespace Sys2Proof.Machine

/-! ## The receive state (R154 to R157) -/

/-! ### The table of R154 -/

section
variable {r : Rif} {n : FrameNum} {rx : Rx}

theorem Rif.stepValid_good (h : r.recv = .good) : r.stepValid n = (.good, 16) := by
  unfold Rif.stepValid
  rw [h]

/-- A valid frame that does not follow starts a run of one. -/
theorem Rif.stepValid_fresh (h : r.recv ≠ .good) (hrun : ¬ (r.run ≠ 0 ∧ r.last = some (n - 1))) :
    r.stepValid n = (r.recv, 1) := by
  have hfol := mt (r.follows_iff n).1 hrun
  unfold Rif.stepValid
  cases hr : r.recv with
  | good => exact absurd hr h
  | hunt | sync => exact if_neg hfol

theorem Rif.stepValid_hunt (h : r.recv = .hunt) (hle : r.run ≤ 1) (hrun : r.run ≠ 0 ∧ r.last = some (n - 1)) :
    r.stepValid n = (if r.run + 1 = 2 then .sync else .hunt, r.run + 1) := by
  have htwo : r.run + 1 = 2 := by have := hrun.1; omega
  unfold Rif.stepValid
  rw [h]
  dsimp only
  rw [if_pos ((r.follows_iff n).2 hrun), if_pos htwo, if_pos htwo.ge]

theorem Rif.stepValid_sync (h : r.recv = .sync) (hle : r.run < 16) (hrun : r.run ≠ 0 ∧ r.last = some (n - 1)) :
    r.stepValid n = (if r.run + 1 = 16 then .good else .sync, r.run + 1) := by
  have hsixteen : 16 ≤ r.run + 1 ↔ r.run + 1 = 16 := by omega
  unfold Rif.stepValid
  rw [h]
  dsimp only
  rw [if_pos ((r.follows_iff n).2 hrun), Nat.min_eq_right hle]
  simp only [hsixteen]

end

/-! ### The laws of the receive state -/

/-- The laws of the receive state, with DSY at the local pace or not. -/
structure Rif.Lawful (r : Rif) (localPace : Bool) : Prop where
  run    : r.run ≤ 16
  count  : r.lossCount ≤ 65535
  good   : r.recv = .good ↔ r.run = 16
  hunt   : r.recv = .hunt → r.run ≤ 1
  loss   : r.recv = .hunt ↔ r.loss = none
  pace   : r.recv = .hunt ↔ localPace = true
  joined : r.joined = true → r.recv = .good
  held   : r.held = true → r.joined = true

theorem ringLaw_iff (s : State) : RingLaw s ↔ s.rif.Lawful s.dsy.localPace :=
  ⟨fun ⟨run, count, good, hunt, loss, pace, joined, held⟩ => ⟨run, count, good, hunt, loss, pace, joined, held⟩,
   fun ⟨run, count, good, hunt, loss, pace, joined, held⟩ => ⟨run, count, good, hunt, loss, pace, joined, held⟩⟩

namespace Rif.Lawful

variable {r : Rif} {b : Bool}

/-- State and run after a valid sample frame fit together (R154). -/
theorem stepValid (h : r.Lawful b) (n : FrameNum) :
    (r.stepValid n).2 ≤ 16 ∧ ((r.stepValid n).1 = .good ↔ (r.stepValid n).2 = 16)
    ∧ ((r.stepValid n).1 = .hunt → (r.stepValid n).2 ≤ 1) ∧ (r.recv = .good → (r.stepValid n).1 = .good) := by
  by_cases hgood : r.recv = .good
  · rw [Rif.stepValid_good hgood]
    exact ⟨Nat.le_refl 16, iff_of_true rfl rfl, RecvState.noConfusion, fun _ => rfl⟩
  · by_cases hfol : r.run ≠ 0 ∧ r.last = some (n - 1)
    · have hlt : r.run < 16 := by
        have := h.run
        have := mt h.good.2 hgood
        omega
      cases hr : r.recv with
      | good => exact absurd hr hgood
      | hunt =>
        have hle := h.hunt hr
        rw [Rif.stepValid_hunt hr hle hfol]
        have : r.run + 1 = 2 := by omega
        simp [this]
      | sync =>
        rw [Rif.stepValid_sync hr hlt hfol]
        split_ifs with h16 <;> simp <;> omega
    · rw [Rif.stepValid_fresh hgood hfol]
      exact ⟨Nat.le_add_left 1 15, iff_of_false hgood (Nat.succ_ne_succ_iff.2 (Nat.zero_ne_add_one 14)), fun _ => Nat.le_refl 1,
        fun hg => absurd hg hgood⟩

/-- After a valid sample frame, DSY leaves the local pace where the frame is handed over (R32, R157). -/
theorem takeValid (h : r.Lawful b) (n : FrameNum) (rx : Rx) {c : Bool}
    (hc : (r.takeValid n rx).recv = .hunt ↔ c = true) : (r.takeValid n rx).Lawful c := by
  obtain ⟨hrun, hgood, hhunt, hstays⟩ := h.stepValid n
  refine ⟨hrun, h.count, hgood, hhunt, ?_, hc, fun hj => hstays (h.joined hj), h.held⟩
  show (r.stepValid n).1 = .hunt ↔ (if (r.stepValid n).1 = .hunt then none else some 0) = none
  split_ifs with hs <;> simp [hs]

theorem takeFailed (h : r.Lawful b) (rx : Rx) : (r.takeFailed rx).Lawful b := by
  have hrun : (r.takeFailed rx).run = if r.recv = .good then r.run else 0 := rfl
  refine ⟨?_, h.count, ?_, fun hh => ?_, h.loss, h.pace, h.joined, h.held⟩
  · rw [hrun]
    split_ifs
    · exact h.run
    · exact Nat.zero_le _
  · show r.recv = .good ↔ _
    rw [hrun]
    split_ifs with hg
    · exact h.good
    · exact ⟨fun hg' => absurd hg' hg, fun hn => absurd hn (by decide)⟩
  · rw [hrun, if_neg (by rw [show r.recv = .hunt from hh]; decide)]
    exact Nat.zero_le _

theorem enterGood (h : r.Lawful b) : ({ r with lossSinceGood := false, lossCount := 0 } : Rif).Lawful b :=
  ⟨h.run, Nat.zero_le _, h.good, h.hunt, h.loss, h.pace, h.joined, h.held⟩

/-- HUNT with nothing received: at the loss of the ring and at power-on (R155, R164). -/
theorem ofHunt (hrecv : r.recv = .hunt) (hrun : r.run = 0) (hloss : r.loss = none) (hcount : r.lossCount ≤ 65535)
    (hjoined : r.joined = false) (hheld : r.held = false) : r.Lawful true := by
  refine ⟨by omega, hcount, ?_, fun _ => by omega, by simp [hrecv, hloss], by simp [hrecv], ?_, ?_⟩
  · rw [hrecv, hrun]
    decide
  · rw [hjoined]
    exact fun h => nomatch h
  · rw [hheld]
    exact fun h => nomatch h

end Rif.Lawful

/-! ### The entry to GOOD (R156) -/

theorem enterGood_quiet {s : State} (h : s.rif.lossSinceGood = false) :
    enterGood s = s.setRif { s.rif with lossCount := 0 } := by
  unfold enterGood
  rw [h]
  rfl

theorem enterGood_afterLoss {s : State} (h : s.rif.lossSinceGood = true) : enterGood s =
    let u := (takeRegain (s.setRif { s.rif with lossSinceGood := false })).raise .ringRegained none [word s.rif.lossCount]
    u.setRif { u.rif with lossCount := 0 } := by
  unfold enterGood
  rw [h]
  rfl

/-! ### DSY's pace after a sample frame (R32) -/

theorem handValid_localPace (f : Sample) (s : State) : (handValid f s).dsy.localPace = false :=
  (handValid_framed f s).localPace

theorem handValid_keeps (f : Sample) (s : State) : Keeps s (handValid f s) := (setDsy_keeps ..).trans (ringFrame_keeps ..)

theorem handHeld_keeps (pace : Nat) (s : State) : Keeps s (handHeld pace s) := (setDsy_keeps ..).trans (ringFrame_keeps ..)

theorem handHeld_localPace (pace : Nat) (s : State) : (handHeld pace s).dsy.localPace = s.dsy.localPace :=
  (handHeld_framed pace s).localPace

/-! ### The loss of the ring (R155) -/

/-- The state in which TXE takes LOST: the held release and the join dropped, DSY at the local pace with its towers in REST. -/
def lossSignalled (s : State) : State := (s.setRif { s.rif with held := false, joined := false }).setDsy s.dsy.takeLost

theorem loseRing_eq (s : State) : loseRing s =
    let u := (takeLost (lossSignalled s)).raise .ringLost none (optFrameWords s.rif.last)
    takeAtRest (u.setRif u.rif.dropped) := rfl

/-! ## Every command (R154, R155, R160 to R162, R165, R172) -/

/-- The laws of the queues and of the ring hold in t if they do in s. -/
structure RingKept (s t : State) : Prop where
  queue : QueueLaw s → QueueLaw t
  ring  : RingLaw s → RingLaw t

namespace RingKept

variable {s t u : State}

theorem refl (s : State) : RingKept s s := ⟨id, id⟩

theorem ite {p : Prop} [Decidable p] (h : RingKept s t) (k : RingKept s u) : RingKept s (if p then t else u) := by
  split
  · exact h
  · exact k

theorem ofQuiet (h : RingQuiet s t) : RingKept s t := by
  refine ⟨fun ⟨hqueue, hreports⟩ => ⟨by rwa [h.queue], h.reports hreports⟩, fun law => ?_⟩
  rw [ringLaw_iff] at law ⊢
  rwa [h.rif, h.localPace]

/-- The queues keep their bounds, and RIF its laws at DSY's pace. -/
theorem ofRif (hcmu : QueueLaw s → QueueLaw t) (h : s.rif.Lawful s.dsy.localPace → t.rif.Lawful t.dsy.localPace) :
    RingKept s t := ⟨hcmu, fun law => (ringLaw_iff t).2 (h ((ringLaw_iff s).1 law))⟩

/-- An operation of the other blocks keeps the bounds of the queues. -/
theorem queueOfKeeps (h : Keeps s t) (law : QueueLaw s) : QueueLaw t := by
  obtain ⟨hqueue, hreports⟩ := law
  exact ⟨by rwa [h.queue], h.reports hreports⟩

theorem queueOfEnter (r : Record) (law : QueueLaw s) : QueueLaw (s.enter r) := queueOfKeeps (enter_keeps s r) law

/-! ### Sample frames and the loss timer -/

theorem enterGood_queue (s : State) (law : QueueLaw s) : QueueLaw (Machine.enterGood s) := by
  cases hloss : s.rif.lossSinceGood with
  | false =>
    rw [enterGood_quiet hloss]
    exact law
  | true =>
    have hregain := takeRegain_keeps (s.setRif { s.rif with lossSinceGood := false })
    have hkept := queueOfKeeps (hregain.trans (raise_keeps _ .ringRegained none [word s.rif.lossCount])) law
    rw [enterGood_afterLoss hloss]
    exact hkept

theorem ringTaken_queue (f : Sample) (rx : Rx) (s : State) (law : QueueLaw s) : QueueLaw (ringTaken f rx s) := by
  unfold ringTaken
  split
  · exact enterGood_queue _ law
  · exact law

/-- RIF has taken the frame and, where it does, entered GOOD; DSY takes it at the ring pace (R32, R154, R156). -/
theorem ringTaken_lawful {f : Sample} {rx : Rx} (hhand : (s.rif.takeValid f.number rx).recv ≠ .hunt)
    (h : s.rif.Lawful s.dsy.localPace) : (ringTaken f rx s).rif.Lawful false := by
  have hrif := h.takeValid f.number rx (c := false) (iff_of_false hhand Bool.noConfusion)
  unfold ringTaken
  split
  · rw [enterGood_rif]
    exact hrif.enterGood
  · exact hrif

/-- A frame built from held values after a change of RIF (R30). -/
theorem handHeld (h : RingKept s t) (pace : Nat) : RingKept s (handHeld pace t) := by
  refine ⟨fun law => queueOfKeeps (handHeld_keeps ..) (h.queue law), fun law => ?_⟩
  have hlaw := (ringLaw_iff t).1 (h.ring law)
  rw [ringLaw_iff, handHeld_rif, handHeld_localPace]
  exact hlaw

theorem receiveValid (f : Sample) (rx : Rx) (s : State) : RingKept s (Machine.receiveValid f rx s) := by
  by_cases hhand : (s.rif.takeValid f.number rx).recv = .hunt
  · have hbefore := ((s.rif.takeValid_hunt_iff f.number).1 hhand).1
    rw [receiveValid_unhanded hhand]
    exact ofRif id fun h => h.takeValid _ _ (iff_of_true hhand (h.pace.1 hbefore))
  · rw [receiveValid_handed hhand]
    refine ofRif (fun law => queueOfKeeps (handValid_keeps ..) (ringTaken_queue f rx s law)) fun h => ?_
    rw [handValid_localPace, handValid_rif]
    exact ringTaken_lawful hhand h

theorem receiveFailed (rx : Rx) (s : State) : RingKept s (Machine.receiveFailed rx s) := by
  have htaken : RingKept s (s.setRif (s.rif.takeFailed rx)) := ofRif id fun h => h.takeFailed rx
  exact ite htaken (htaken.handHeld _)

theorem receiveSample (rx : Rx) (s : State) : RingKept s (receiveSample rx s) := by
  unfold Machine.receiveSample
  split
  · exact receiveValid ..
  · exact receiveFailed ..

theorem missFrame (s : State) : RingKept s (missFrame s) := by
  have hadvanced : RingKept s (s.setRif { s.rif with frame := s.rif.nextFrame, slotOpen := false }) :=
    ofRif id fun h => ⟨h.run, h.count, h.good, h.hunt, h.loss, h.pace, h.joined, h.held⟩
  exact ite (refl s) (hadvanced.handHeld _)

/-- A loss leaves HUNT and the local pace, whatever TXE does on it (R155, R31). -/
theorem loseRing (s : State) : RingKept s (loseRing s) := by
  have hkeeps := (takeLost_keeps (lossSignalled s)).trans (raise_keeps _ .ringLost none (optFrameWords s.rif.last))
  have hpace := ((OrdersOnly.refl (lossSignalled s)).takeLost.raise .ringLost none (optFrameWords s.rif.last)).dsy.localPace
  rw [loseRing_eq]
  generalize (takeLost (lossSignalled s)).raise .ringLost none (optFrameWords s.rif.last) = u at hkeeps hpace
  have hrest := takeAtRest_keeps (u.setRif u.rif.dropped)
  refine ofRif (fun law => queueOfKeeps hrest (queueOfKeeps (s := lossSignalled s) (t := u) hkeeps law)) fun _ => ?_
  rw [hrest.rif, (OrdersOnly.refl (u.setRif u.rif.dropped)).takeAtRest.dsy.localPace, State.setRif_rif, State.setRif_dsy,
    hkeeps.rif, hpace]
  exact .ofHunt rfl rfl rfl (Nat.min_le_left ..) rfl rfl

theorem lossExpiry (s : State) : RingKept s (lossExpiry s) := ite (refl s) (loseRing s)

/-! ### Message frames -/

/-- A message frame that passes leaves the receive state as it was. -/
theorem passMessage_lawful (rx : Rx) (h : s.rif.Lawful s.dsy.localPace) : (passMessage rx s).rif.Lawful s.dsy.localPace :=
  ⟨h.run, h.count, h.good, h.hunt, h.loss, h.pace, h.joined, h.held⟩

theorem passMessage (rx : Rx) (s : State) : RingKept s (passMessage rx s) := ofRif id (passMessage_lawful rx)

theorem receiveMgmt (rx : Rx) (s : State) : RingKept s (receiveMgmt rx s) := by
  unfold Machine.receiveMgmt
  split
  next m _ =>
    refine ite ?_ (passMessage rx s)
    unfold enqueue
    split
    next hroom =>
      refine ⟨fun ⟨_, hreports⟩ => ⟨?_, hreports⟩, (passMessage rx s).ring⟩
      show (s.cmu.queue ++ [m]).length ≤ 4
      rw [List.length_append]
      exact hroom
    · exact ofRif (queueOfEnter (s := Machine.passMessage rx s) _) (passMessage_lawful rx)
  · exact passMessage rx s

theorem receiveTime (rx : Rx) (s : State) : RingKept s (receiveTime rx s) := by
  unfold Machine.receiveTime
  split
  next b _ =>
    have hkeeps := takeTime_keeps (Machine.passMessage rx s) b
    have hpace := ((OrdersOnly.refl (Machine.passMessage rx s)).takeTime b).dsy.localPace
    refine ite (ofRif (queueOfKeeps (s := Machine.passMessage rx s) hkeeps) fun h => ?_) (passMessage rx s)
    rw [hkeeps.rif, hpace]
    exact passMessage_lawful rx h
  · exact passMessage rx s

/-- A RELEASE acts in GOOD alone, where the unit joins and holds it (R160, R161). -/
theorem receiveRelease (rx : Rx) (s : State) : RingKept s (receiveRelease rx s) := by
  unfold Machine.receiveRelease
  split_ifs with hslot hjoined htakes
  · refine ⟨fun ⟨hqueue, hreports⟩ => ⟨hqueue, ?_⟩, fun law => ?_⟩
    · show (s.cmu.reports.drop _).length ≤ 32
      rw [List.length_drop]
      omega
    · have h := passMessage_lawful rx ((ringLaw_iff s).1 law)
      exact ⟨h.run, h.count, h.good, h.hunt, h.loss, h.pace, h.joined, fun _ => hjoined⟩
  · exact passMessage rx s
  · refine ofRif (queueOfEnter (s := (Machine.passMessage rx s).setRif _) _) fun h => ?_
    have hgood : s.rif.recv = .good := by
      simp only [releaseSlot, Bool.and_eq_true, beq_iff_eq] at hslot
      exact hslot.2.2
    exact ⟨h.run, h.count, h.good, h.hunt, h.loss, h.pace, fun _ => hgood, fun _ => rfl⟩
  · exact passMessage rx s

theorem receiveEmpty (rx : Rx) (s : State) : RingKept s (receiveEmpty rx s) := by
  refine ite (ofRif id fun h => ?_) (passMessage rx s)
  exact ⟨h.run, h.count, h.good, h.hunt, h.loss, h.pace, h.joined, fun hheld => nomatch hheld⟩

/-! ### Power, commands and time -/

theorem powerOn (a : BitVec 4) (s : State) : RingKept s (powerOn a s) :=
  ⟨fun _ => by simp [QueueLaw, Machine.powerOn, Cmu.reset], fun _ => (ringLaw_iff _).2 (.ofHunt rfl rfl rfl (Nat.zero_le _) rfl rfl)⟩

theorem resetHeld (s : State) : RingKept s (resetHeld s) :=
  ⟨fun _ => by simp [QueueLaw, Machine.resetHeld, Cmu.reset], fun _ => (ringLaw_iff _).2 (.ofHunt rfl rfl rfl (Nat.zero_le _) rfl rfl)⟩

theorem reportingBody (m : Mgmt) (s : State) : RingKept s (reportingBody m s).1 :=
  ofRif id fun h => ⟨h.run, h.count, h.good, h.hunt, h.loss, h.pace, h.joined, h.held⟩

theorem clearOverflowBody (m : Mgmt) (s : State) : RingKept s (clearOverflowBody m s).1 := ofRif id id

theorem restartBody (m : Mgmt) (s : State) : RingKept s (restartBody m s).1 := by
  refine ⟨fun _ => ⟨?_, Nat.zero_le _⟩, fun law => ?_⟩
  · show (s.cmu.queue.take 1).length ≤ 4
    rw [List.length_take]
    omega
  · have h := (ringLaw_iff s).1 law
    exact (ringLaw_iff _).2 ⟨h.run, h.count, h.good, h.hunt, h.loss, h.pace, h.joined, h.held⟩

theorem whileRunning {f : State → State} (hf : RingKept s (f s)) : RingKept s (whileRunning f s) := ite hf (refl s)

theorem whileCounting {f : State → State} (hf : RingKept s (f s)) : RingKept s (whileCounting f s) := ite hf (refl s)

/-- The frame answered leaves the Command Queue and its return record enters the Report Queue (R165, R168, R172). -/
theorem finishCommand (m : Mgmt) {r : State × Answer} (h : RingKept s r.1) : RingKept s (finishCommand m r) := by
  refine ⟨fun law => ?_, h.ring⟩
  obtain ⟨hqueue, hreports⟩ := h.queue law
  refine queueOfEnter (s := r.1.setCmu { r.1.cmu with queue := r.1.cmu.queue.tail }) _ ⟨?_, hreports⟩
  rw [State.setCmu_cmu, List.length_tail]
  omega

/-- A command of CMU keeps the laws when its block does (R166). -/
theorem serve {c : Cmd} {body : Mgmt → State → State × Answer} (hb : ∀ m, RingKept s (body m s).1) :
    RingKept s (Machine.whileRunning (serve c body) s) := by
  refine whileRunning ?_
  unfold Machine.serve
  split
  · exact refl s
  next m _ _ =>
    refine ite ?_ (refl s)
    unfold runCommand
    split
    · exact finishCommand m (refl s)
    · exact finishCommand m (hb m)

theorem serveUnknown (s : State) : RingKept s (serveUnknown s) := by
  unfold Machine.serveUnknown
  split
  · exact refl s
  next m _ _ => exact ite (finishCommand m (refl s)) (refl s)

/-- A quarter counts the loss timer where it runs; whether it runs stays (R155). -/
theorem tick (s : State) : RingKept s (tick s) := by
  obtain ⟨hstate, hdsy⟩ := tick_frame s
  have hrif : (Machine.tick s).rif = { s.rif with loss := s.rif.loss.map (· + 1) } := by rw [hstate]
  have hcmu : (Machine.tick s).cmu = s.cmu := by rw [hstate]
  refine ofRif (fun law => by rwa [QueueLaw, hcmu]) fun h => ?_
  rw [hrif, hdsy]
  exact ⟨h.run, h.count, h.good, h.hunt, h.loss.trans Option.map_eq_none_iff.symm, h.pace, h.joined, h.held⟩

theorem idle (s : State) : RingKept s (idle s) := by
  unfold Machine.idle
  split
  · split
    · exact ofRif id id
    · exact ite (tick s) (refl s)
  · exact refl s

end RingKept

/-- Every command keeps the laws of the queues and of the ring. -/
theorem exec_ringKept (i : Instr) (s : State) : ∃ t, exec i s = .next t ∧ RingKept s t := by
  have counting : ∀ {f : State → State}, RingQuiet s (f s) → RingKept s (whileCounting f s) := fun hf =>
    .whileCounting (.ofQuiet hf)
  have running : ∀ {f : State → State}, RingQuiet s (f s) → RingKept s (whileRunning f s) := fun hf =>
    .whileRunning (.ofQuiet hf)
  have served : ∀ {c : Cmd} {body : Mgmt → State → State × Answer}, (∀ m, RingQuiet s (body m s).1) →
      RingKept s (whileRunning (serve c body) s) := fun hb => .serve fun m => .ofQuiet (hb m)
  have quiet := RingQuiet.refl s
  cases i with
  | powerOnReset a => exact ⟨_, rfl, .powerOn a s⟩
  | resetAsserted => exact ⟨_, rfl, .resetHeld s⟩
  | refclkStopped | refclkReturned => exact ⟨_, rfl, .ofRif id id⟩
  | sampleFrame rx => exact ⟨_, rfl, .whileRunning (.receiveSample rx s)⟩
  | missedFrame => exact ⟨_, rfl, .whileCounting (.missFrame s)⟩
  | localPaceFrame => exact ⟨_, rfl, counting (.localFrame s)⟩
  | lossTimerExpiry => exact ⟨_, rfl, .whileCounting (.lossExpiry s)⟩
  | mgmtFrame rx => exact ⟨_, rfl, .whileRunning (.receiveMgmt rx s)⟩
  | timeFrame rx => exact ⟨_, rfl, .whileRunning (.receiveTime rx s)⟩
  | releaseFrame rx => exact ⟨_, rfl, .whileRunning (.receiveRelease rx s)⟩
  | emptyFrame rx => exact ⟨_, rfl, .whileRunning (.receiveEmpty rx s)⟩
  | status | read => exact ⟨_, rfl, served fun _ => quiet⟩
  | switch => exact ⟨_, rfl, served fun m => .switchBody m s⟩
  | withdraw => exact ⟨_, rfl, served fun m => .withdrawBody m s⟩
  | go => exact ⟨_, rfl, served fun m => .goBody m s⟩
  | continueTx => exact ⟨_, rfl, served fun m => .continueBody m s⟩
  | retreat => exact ⟨_, rfl, served fun m => .retreatBody m s⟩
  | mute => exact ⟨_, rfl, served fun m => .muteBody m s⟩
  | move => exact ⟨_, rfl, served fun m => .moveBody m s⟩
  | ackFault => exact ⟨_, rfl, served fun _ => quiet.setMon _⟩
  | trimClear => exact ⟨_, rfl, served fun m => .trimClearBody m s⟩
  | scheduleHold => exact ⟨_, rfl, served fun m => .scheduleHoldBody m s⟩
  | claim => exact ⟨_, rfl, served fun m => quiet.loads (.claimBody m s)⟩
  | load => exact ⟨_, rfl, served fun m => quiet.loads (.loadBody m s)⟩
  | commit => exact ⟨_, rfl, served fun m => quiet.loads (.commitBody m s)⟩
  | finish => exact ⟨_, rfl, served fun m => quiet.loads (.finishBody m s)⟩
  | unclaim => exact ⟨_, rfl, served fun m => quiet.loads (.unclaimBody m s)⟩
  | reporting => exact ⟨_, rfl, .serve fun m => .reportingBody m s⟩
  | clearOverflow => exact ⟨_, rfl, .serve fun m => .clearOverflowBody m s⟩
  | restart => exact ⟨_, rfl, .serve fun m => .restartBody m s⟩
  | interlockOpening => exact ⟨_, rfl, .ofQuiet (.ilkLineOpen s)⟩
  | interlockLineClosed => exact ⟨_, rfl, .ofQuiet (quiet.setDsy (by rfl))⟩
  | interlockQualified => exact ⟨_, rfl, counting (.ilkQualified s)⟩
  | rdyLineChange t b => exact ⟨_, rfl, .ofQuiet (quiet.setDsy (by split <;> rfl))⟩
  | cabinetDebounceExpiry t => exact ⟨_, rfl, counting (.rdyDebounced t s)⟩
  | auxInputChange c a b => exact ⟨_, rfl, .ofQuiet (quiet.setCtu _)⟩
  | auxDebounceExpiry c a => exact ⟨_, rfl, counting (.auxDebounced c a s)⟩
  | travelLimitExpiry c => exact ⟨_, rfl, counting (.travelExpired c s)⟩
  | settleTimerExpiry => exact ⟨_, rfl, counting (.settleExpired s)⟩
  | gateTimerExpiry => exact ⟨_, rfl, counting (.gateExpired s)⟩
  | checkCompletion x => exact ⟨_, rfl, running (.completeCheck x s)⟩
  | claimLapse x => exact ⟨_, rfl, counting (.lapse x s)⟩
  | monitorRecord rx => exact ⟨_, rfl, running (.takeRecord rx s)⟩
  | absenceTimerExpiry => exact ⟨_, rfl, counting (.absenceExpiry s)⟩
  | holdOffExpiry => exact ⟨_, rfl, counting (quiet.setMon _)⟩
  | staleTimerExpiry => exact ⟨_, rfl, counting (.staleExpiry s)⟩
  | unknownCommand => exact ⟨_, rfl, .whileRunning (.serveUnknown s)⟩

/-- Settles O54: most operations leave RIF, DSY's pace and the Command Queue alone (`RingQuiet`); a sample frame and a loss keep
the laws of the receive state (`Rif.Lawful`), and a queue grows only where it has room. -/
theorem stepsKeepTheQueueAndRingLaws : Obligations.StepsKeepTheQueueAndRingLaws := by
  intro s t hstep
  have h : RingKept s t := by
    unfold step at hstep
    split at hstep
    next =>
      cases hstep
      exact .idle s
    next c rest _ =>
      obtain ⟨u, hu, hkept⟩ := exec_ringKept c (s.setPending rest)
      rw [hu] at hstep
      cases hstep
      exact ⟨hkept.queue, hkept.ring⟩
  exact ⟨h.queue, h.ring⟩

end Sys2Proof.Machine
end

section
/-! SUPPORT. Sample frames as the table of R154 states them; the loss of the ring and its return in every array state. -/
namespace Sys2Proof.Machine

/-! ## The receive state after a sample frame (R154 to R157) -/

section
variable {rx : Rx} {s : State} {f : Sample}

/-- RIF after a valid sample frame: what it took, with the loss-since-good flag and the loss count cleared at the entry to GOOD
alone (R154 to R156). -/
theorem receiveSample_rif_valid (hf : parseSample rx = some f) : ∃ flag count,
    (receiveSample rx s).rif = { s.rif.takeValid f.number rx with lossSinceGood := flag, lossCount := count }
    ∧ (s.rif.recv ≠ .good → (s.rif.takeValid f.number rx).recv = .good → flag = false ∧ count = 0)
    ∧ (s.rif.recv = .good ∨ (s.rif.takeValid f.number rx).recv ≠ .good →
        flag = s.rif.lossSinceGood ∧ count = s.rif.lossCount) := by
  have hrif := receiveSample_rif rx s
  rw [hf] at hrif
  by_cases henters : s.rif.recv ≠ .good ∧ (s.rif.takeValid f.number rx).recv = .good
  · refine ⟨false, 0, hrif.trans (if_pos henters), fun _ _ => ⟨rfl, rfl⟩, fun h => ?_⟩
    rcases h with h | h
    · exact absurd h henters.1
    · exact absurd henters.2 h
  · exact ⟨_, _, hrif.trans (if_neg henters), fun h1 h2 => absurd ⟨h1, h2⟩ henters, fun _ => ⟨rfl, rfl⟩⟩

theorem receiveSample_rif_failed (hf : parseSample rx = none) : (receiveSample rx s).rif = s.rif.takeFailed rx := by
  have hrif := receiveSample_rif rx s
  rw [hf] at hrif
  exact hrif

end

/-- Settles O7: RIF after the frame is `takeValid` or `takeFailed`, whose rows are the `Rif.stepValid` lemmas. -/
theorem sampleFrameReceiveTable : Obligations.SampleFrameReceiveTable := by
  intro rx s hrun hlaw
  have law := (ringLaw_iff s).1 hlaw
  refine ⟨_, exec_sampleFrame hrun, ?_⟩
  cases hf : parseSample rx with
  | none =>
    rw [receiveSample_rif_failed hf]
    refine ⟨rfl, rfl, rfl, rfl, rfl, rfl, rfl, fun hbefore hafter => absurd hafter hbefore, fun _ => ⟨rfl, rfl⟩,
      fun _ h => (nomatch h), fun _ => ⟨rfl, rfl, rfl, ?_⟩⟩
    show (if s.rif.recv = .good then s.rif.run else 0) = _
    exact ite_congr rfl law.good.1 fun _ => rfl
  | some f =>
    obtain ⟨flag, count, hrif, hclears, hstays⟩ := receiveSample_rif_valid (s := s) hf
    rw [hrif]
    refine ⟨rfl, rfl, rfl, rfl, rfl, rfl, rfl, hclears, hstays, fun g hg => ?_, fun h => nomatch h⟩
    obtain rfl : f = g := Option.some.inj hg
    have hstep : ∀ {x}, s.rif.stepValid f.number = x → (s.rif.takeValid f.number rx).run = x.2
        ∧ (s.rif.takeValid f.number rx).recv = x.1 := fun hx => by rw [← hx]; exact ⟨rfl, rfl⟩
    refine ⟨rfl, rfl, fun hfol => ⟨fun hhunt => ?hunt, fun hsync => ?sync⟩, fun hfol hgood => ?fresh, fun hgood => ?good⟩
    case hunt => exact hstep (Rif.stepValid_hunt hhunt (law.hunt hhunt) hfol)
    case sync =>
      have hbelow : s.rif.run ≠ 16 := fun h => RecvState.noConfusion (hsync.symm.trans (law.good.2 h))
      exact hstep (Rif.stepValid_sync hsync (Nat.lt_of_le_of_ne law.run hbelow) hfol)
    case fresh => exact hstep (Rif.stepValid_fresh hgood hfol)
    case good => exact hstep (x := (.good, 16)) (Rif.stepValid_good hgood)

/-! ## The regain signal (R102, R156) -/

/-- RIF as the sixteenth valid frame in a row leaves it, before the entry to GOOD is examined (R154, R157). -/
theorem takeValid_entersGood {r : Rif} {n : FrameNum} (hsync : r.recv = .sync) (hrun : r.run = 15)
    (hlast : r.last = some (n - 1)) (rx : Rx) : r.takeValid n rx
      = { r with recv := .good, run := 16, last := some n, loss := some 0, frame := some n, slotOpen := true,
                 out := some rx } := by
  have hstep : r.stepValid n = (.good, 16) := by
    rw [Rif.stepValid_sync hsync (by omega) ⟨by omega, hlast⟩, hrun]
    rfl
  unfold Rif.takeValid
  rw [hstep]
  rfl

/-- The sixteenth valid frame in a row enters GOOD and is handed over after that (log 9). -/
theorem receiveSample_entersGood {rx : Rx} {s : State} {f : Sample} (hf : parseSample rx = some f)
    (hsync : s.rif.recv = .sync) (hgood : (s.rif.takeValid f.number rx).recv = .good) :
    receiveSample rx s = handValid f (enterGood (s.setRif (s.rif.takeValid f.number rx))) := by
  have henters : ringTaken f rx s = enterGood (s.setRif (s.rif.takeValid f.number rx)) :=
    if_pos ⟨by rw [hsync]; exact RecvState.noConfusion, hgood⟩
  rw [receiveSample_valid hf, receiveValid_handed (by rw [hgood]; exact RecvState.noConfusion), henters]

theorem takeRegain_other {s : State} (h : s.txe.array.resume = none) : takeRegain s = s := by
  unfold takeRegain
  cases ha : s.txe.array with
  | muted r =>
    rw [ha] at h
    obtain rfl : r = none := h
    rfl
  | _ => rfl

/-- The state in which the RESUME transition enters RAMP_DOWN (R102): the resume pattern cleared, the record opened, the guard
NONE. -/
def resumeStarted (p : Slot) (s : State) : State :=
  (s.setTxe { s.txe with
    array := .muted none
    seq := s.txe.seq + 1
    history := recordAtStart (plainContext s .resume p) s.txe.now s :: s.txe.history.take 7 }).setCtu
      { s.ctu with guard := none }

theorem takeRegain_eq {s : State} {p : Slot} (ha : s.txe.array = .muted (some p)) : takeRegain s = tellStarted .resume
    (raiseStarted (plainContext s .resume p) s.txe.seq (enterRampDown (plainContext s .resume p) (resumeStarted p s))) := by
  unfold takeRegain
  rw [ha]
  rfl

/-- In a phase or in HALTED there is no resume pattern. -/
theorem resume_of_running {a : ArrayState} (h : (∃ c, a.context = some c) ∨ ∃ x, a = .halted x) : a.resume = none := by
  rcases h with ⟨c, hc⟩ | ⟨x, rfl⟩
  · cases a with
    | muted r => cases hc
    | _ => rfl
  · rfl

/-- While RAMP_DOWN is stayed in, the entry gave no move request: CTU is as it was. -/
theorem enterRampDown_ctu {c x : TxContext} {s : State} (h : (enterRampDown c s).txe.array = .rampDown x) :
    (enterRampDown c s).ctu = s.ctu := by
  rcases enterRampDown_cases s c with ⟨hstay, _⟩ | ⟨hgoes, _⟩
  · rw [hstay]
    rfl
  · rcases hgoes.runs with ⟨d, _, _, hpast⟩ | ⟨y, hy, _⟩
    · exact absurd h (hpast x)
    · rw [hy] at h
      cases h

/-- Settles O12: the entry to GOOD is `enterGood` before the frame is handed over; the RESUME transition is `takeRegain_eq`, and
what RAMP_DOWN leads to `enterRampDown_entered`. -/
theorem entryToGoodAfterALossResumesThePattern : Obligations.EntryToGoodAfterALossResumesThePattern := by
  refine ⟨fun rx f s hrun hf hsync hfifteen hlast => ?_, fun s p ha => ?_, fun s => takeRegain_other⟩
  · have htaken := takeValid_entersGood hsync hfifteen hlast rx
    intro u
    have hreceived : receiveSample rx s = handValid f (enterGood u) := by
      rw [receiveSample_entersGood hf hsync (by rw [htaken]), htaken]
    rw [exec_sampleFrame hrun, hreceived]
    exact ⟨fun hloss => by rw [enterGood_afterLoss (s := u) hloss]; rfl, fun hquiet => by rw [enterGood_quiet (s := u) hquiet]⟩
  · intro t
    have ht : t = _ := takeRegain_eq ha
    have hentered := enterRampDown_entered (plainContext s .resume p) (resumeStarted p s)
    have htxe : t.txe = (enterRampDown (plainContext s .resume p) (resumeStarted p s)).txe := by rw [ht]; rfl
    have hctu : t.ctu = (enterRampDown (plainContext s .resume p) (resumeStarted p s)).ctu := by rw [ht]; rfl
    obtain ⟨halts, hhistory⟩ := hentered.history _ _ rfl rfl rfl
    rw [htxe, hctu]
    refine ⟨recordAtStart (plainContext s .resume p) s.txe.now s, plainContext s .resume p, rfl, rfl, rfl, rfl, rfl, rfl, rfl,
      rfl, fun n hn => ?_, rfl, rfl, rfl, rfl, rfl, rfl, rfl, rfl, rfl, rfl, rfl, formContext_sets .., ht,
      ⟨_, _, hhistory, rfl, rfl⟩, hentered.seq, hentered.frame, resume_of_running ?_, hentered.armed, ?_⟩
    · show s.txe.now = n
      rw [Txe.now, hn]
      rfl
    · exact hentered.array.imp (fun ⟨d, hd, _⟩ => ⟨d, hd⟩) fun ⟨x, hx, _⟩ => ⟨x, hx⟩
    · rcases hentered.array with ⟨d, hd, hsame⟩ | ⟨x, hx, hhalts⟩
      · exact .inl ⟨d, hd, hsame.cause, hsame.source, hsame.target, hsame.mode, hsame.joint, hsame.down, hsame.up, hsame.blend,
          enterRampDown_ctu⟩
      · exact .inr ⟨x, hx, hhalts.cause, hhalts.source, hhalts.target, hhalts.mode, hhalts.joint, hhalts.up⟩

/-! ## The loss of the ring (R31, R100, R155) -/

section
variable {s : State}

/-- The state that a loss leaves but for what TXE, MON and SCU do on it: HUNT with the loss counted, DSY at the local pace with
its towers in REST (R31, R155). -/
def ringDropped (s : State) : State :=
  { s with rif := ({ s.rif with held := false, joined := false } : Rif).dropped, dsy := s.dsy.takeLost }

theorem ringDropped_tower (s : State) (k : TowerIx) :
    (ringDropped s).dsy.towers[k] = { s.dsy.towers[k] with order := .rest } := by
  have hall : ∀ k : TowerIx, has (BitVec.allOnes 8) k = true := by decide
  exact (forceZero_tower ..).trans (if_pos (hall k))

/-- The notice RING_LOST, without a frame number (R155, R171). -/
def ringLostNotice (s : State) : Record := .notice .ringLost none none none (optFrameWords s.rif.last)

/-- Where TXE leaves RIF and DSY alone on LOST, the loss is what it does, then RING_LOST and HUNT, then the at-rest changes. -/
theorem loseRing_of_takeLost {u : State} (h : takeLost (lossSignalled s) = u) (hrif : u.rif = (lossSignalled s).rif)
    (hdsy : u.dsy = s.dsy.takeLost) :
    loseRing s = takeAtRest { u with rif := (ringDropped s).rif, cmu := u.cmu.enter (ringLostNotice s) } := by
  have hstamp : u.stamp = none := by
    rw [State.stamp, hdsy]
    rfl
  rw [loseRing_eq, h]
  simp only [State.raise, State.enter, hstamp, State.setCmu, State.setRif, hrif]
  rfl

/-- The state whose notices a loss raises: at the local pace they carry no frame number (R171). -/
abbrev atLocalPace (s : State) : State := s.setDsy { s.dsy with localPace := true }

/-- ACTIVE and MUTING go to MUTED, with these notices before MUTED. -/
theorem loss_muted {u : State} {r : Option Slot} {before : List Record}
    (h : takeLost (lossSignalled s) = enterMuted .ring r u) (hrif : u.rif = (lossSignalled s).rif)
    (hdsy : u.dsy = s.dsy.takeLost) (hscu : u.scu = s.scu) (hcmu : u.cmu = s.cmu.enterAll before) :
    loseRing s = { u with
      rif := (ringDropped s).rif
      txe := { u.txe with array := .muted r }
      mon := u.mon.leaveActive
      scu := { s.scu with deferred := none }
      cmu := s.cmu.enterAll (before ++ [mutedNotice r 2 (atLocalPace s)] ++ discardedNotice (atLocalPace s)
        ++ [ringLostNotice s]) } := by
  have hstamp : u.stamp = (atLocalPace s).stamp := by
    rw [State.stamp, hdsy]
    rfl
  have hmuted : mutedNotice r 2 u = mutedNotice r 2 (atLocalPace s) := by rw [mutedNotice, hstamp]; rfl
  have hdiscard : discardedNotice u = discardedNotice (atLocalPace s) := by rw [discardedNotice, hstamp, hscu]; rfl
  rw [enterMuted_eq, show MutedCause.ring.code = 2 from rfl, hmuted, hdiscard, hcmu, hscu] at h
  rw [loseRing_of_takeLost h hrif hdsy, takeAtRest_quiet (.inr ⟨r, rfl⟩), List.append_assoc before, Cmu.enterAll_append,
    Cmu.enterAll_append]
  rfl

theorem loss_active {p : Slot} (ha : s.txe.array = .active p) : loseRing s = { ringDropped s with
    txe := { s.txe with array := .muted (some p), armed := none }
    ctu := { s.ctu with guard := none }
    mon := s.mon.leaveActive
    scu := { s.scu with deferred := none }
    cmu := s.cmu.enterAll (withdrawnNotice 6 (atLocalPace s) ++ [mutedNotice (some p) 2 (atLocalPace s)]
      ++ discardedNotice (atLocalPace s) ++ [ringLostNotice s]) } := by
  have hlost : takeLost (lossSignalled s) = enterMuted .ring (some p) (setGuard none (withdraw .ring (lossSignalled s))) := by
    unfold takeLost
    rw [show (lossSignalled s).txe.array = .active p from ha]
  rw [withdraw_eq] at hlost
  exact loss_muted hlost rfl rfl rfl rfl

theorem loss_muting (ha : s.txe.array = .muting) : loseRing s = { ringDropped s with
    txe := { s.txe with array := .muted none }
    mon := s.mon.leaveActive
    scu := { s.scu with deferred := none }
    cmu := s.cmu.enterAll ([mutedNotice none 2 (atLocalPace s)] ++ discardedNotice (atLocalPace s) ++ [ringLostNotice s]) } := by
  have hlost : takeLost (lossSignalled s) = enterMuted .ring none (lossSignalled s) := by
    unfold takeLost
    rw [show (lossSignalled s).txe.array = .muting from ha]
  exact loss_muted (u := lossSignalled s) (before := []) hlost rfl rfl rfl rfl

/-- A phase halts, its towers forced to REST already. -/
theorem loss_phase {c : TxContext} (hc : s.txe.array.context = some c) {v : HaltView} (hv : haltView s = some v) :
    let k := { formHalt .ring .none v s.txe.newestSeq with restNoticed := (ringDropped s).dsy.allAtRest }
    loseRing s = { ringDropped s with
      txe := { s.txe with array := .halted k, armed := none, history := countHalt s.txe.history }
      ctu := { s.ctu with guard := none }
      mon := s.mon.leaveActive
      scu := { s.scu with deferred := none }
      cmu := s.cmu.enterAll (withdrawnNotice 4 (atLocalPace s) ++ [haltedNotice k (atLocalPace s)]
        ++ (if k.restNoticed then [atRestNotice k (atLocalPace s)] else []) ++ discardedNotice (atLocalPace s)
        ++ [ringLostNotice s]) } := by
  intro k
  have hlost : takeLost (lossSignalled s) = halt .ring .none (lossSignalled s) := by
    unfold takeLost
    cases ha : s.txe.array with
    | rampDown | switching | settle | readyUp | rampUp => rw [show (lossSignalled s).txe.array = _ from ha]
    | unset | active | halted | muting | muted =>
      rw [ha] at hc
      cases hc
  have hview : haltView (lossSignalled s) = some v := (haltView_congr rfl rfl rfl).trans hv
  rw [loseRing_of_takeLost (hlost.trans (halt_eq .ring .none hview)) rfl rfl, takeAtRest_halted_eq rfl,
    if_neg fun ⟨hnot, hrest⟩ => Bool.noConfusion (hnot.symm.trans hrest), Cmu.enterAll_append _ _ [ringLostNotice s]]
  rfl

/-- In UNSET, MUTED and HALTED TXE does nothing on LOST itself (R100). -/
theorem loss_quiet (h : s.txe.array = .unset ∨ (∃ r, s.txe.array = .muted r) ∨ ∃ h, s.txe.array = .halted h) :
    loseRing s = takeAtRest { ringDropped s with cmu := s.cmu.enter (ringLostNotice s) } := by
  have hlost : takeLost (lossSignalled s) = lossSignalled s := by
    unfold takeLost
    rcases h with ha | ⟨r, ha⟩ | ⟨x, ha⟩ <;> rw [show (lossSignalled s).txe.array = _ from ha]
  rw [loseRing_of_takeLost hlost rfl rfl]
  rfl

theorem loss_mutedAlready (h : s.txe.array = .unset ∨ ∃ r, s.txe.array = .muted r) :
    loseRing s = { ringDropped s with cmu := s.cmu.enterAll [ringLostNotice s] } := by
  rw [loss_quiet (h.imp_right .inl)]
  exact takeAtRest_quiet h

theorem loss_halted {h : HaltContext} (ha : s.txe.array = .halted h) :
    let b := h.restNoticed || (ringDropped s).dsy.allAtRest
    loseRing s = { ringDropped s with
      txe := { s.txe with array := .halted { h with restNoticed := b } }
      cmu := s.cmu.enterAll ([ringLostNotice s]
        ++ if b = true ∧ h.restNoticed = false then [atRestNotice h (atLocalPace s)] else []) } := by
  intro b
  rw [loss_quiet (.inr (.inr ⟨h, ha⟩)),
    takeAtRest_halted_eq (s := { ringDropped s with cmu := s.cmu.enter (ringLostNotice s) }) ha]
  by_cases hrest : h.restNoticed = false ∧ (ringDropped s).dsy.allAtRest = true
  · obtain ⟨hnot, hall⟩ := hrest
    have hb : b = true := by simp only [b, hall, Bool.or_true]
    rw [if_pos ⟨hnot, hall⟩, if_pos ⟨hb, hnot⟩, hb]
    rfl
  · have hb : b = h.restNoticed := by
      cases hn : h.restNoticed <;> simp_all [b]
    rw [if_neg hrest, if_neg (by rw [hb]; simp), hb, ← ha]
    rfl

/-- What a loss leaves in every array state. -/
structure LostFrom (s t : State) : Prop where
  rif   : t.rif = (ringDropped s).rif
  dsy   : t.dsy = (ringDropped s).dsy
  seq   : t.txe.seq = s.txe.seq
  frame : t.txe.frame = s.txe.frame
  pst   : t.pst = s.pst
  ldu   : t.ldu = s.ldu
  units : t.ctu.units = s.ctu.units
  history : (∀ c, s.txe.array.context ≠ some c) → t.txe.history = s.txe.history

theorem loseRing_lost (s : State) : LostFrom s (loseRing s) := by
  rcases s.txe.array.phase_or with ⟨c, hc⟩ | ⟨p, ha⟩ | ha | ha | ⟨r, ha⟩ | ⟨h, ha⟩
  · obtain ⟨_, hv⟩ := haltView_phase hc
    rw [loss_phase hc hv]
    exact ⟨rfl, rfl, rfl, rfl, rfl, rfl, rfl, fun hn => absurd hc (hn c)⟩
  · rw [loss_active ha]
    exact ⟨rfl, rfl, rfl, rfl, rfl, rfl, rfl, fun _ => rfl⟩
  · rw [loss_muting ha]
    exact ⟨rfl, rfl, rfl, rfl, rfl, rfl, rfl, fun _ => rfl⟩
  · rw [loss_mutedAlready (.inl ha)]
    exact ⟨rfl, rfl, rfl, rfl, rfl, rfl, rfl, fun _ => rfl⟩
  · rw [loss_mutedAlready (.inr ⟨r, ha⟩)]
    exact ⟨rfl, rfl, rfl, rfl, rfl, rfl, rfl, fun _ => rfl⟩
  · rw [loss_halted ha]
    exact ⟨rfl, rfl, rfl, rfl, rfl, rfl, rfl, fun _ => rfl⟩

/-- An entry to MUTED or HALTED tells MON and SCU (R108, R132). -/
theorem loss_tells (h : (∃ p, s.txe.array = .active p) ∨ (∃ c, s.txe.array.context = some c) ∨ s.txe.array = .muting) :
    (loseRing s).mon = s.mon.leaveActive ∧ (loseRing s).scu = { s.scu with deferred := none } := by
  rcases h with ⟨p, ha⟩ | ⟨c, hc⟩ | ha
  · rw [loss_active ha]
    exact ⟨rfl, rfl⟩
  · obtain ⟨_, hv⟩ := haltView_phase hc
    rw [loss_phase hc hv]
    exact ⟨rfl, rfl⟩
  · rw [loss_muting ha]
    exact ⟨rfl, rfl⟩

/-- Where the array stays, MON, SCU and CTU do. -/
theorem loss_stays (h : s.txe.array = .unset ∨ (∃ r, s.txe.array = .muted r) ∨ ∃ h, s.txe.array = .halted h) :
    (loseRing s).mon = s.mon ∧ (loseRing s).scu = s.scu ∧ (loseRing s).ctu = s.ctu := by
  rcases h with ha | ⟨r, ha⟩ | ⟨h, ha⟩
  · rw [loss_mutedAlready (.inl ha)]
    exact ⟨rfl, rfl, rfl⟩
  · rw [loss_mutedAlready (.inr ⟨r, ha⟩)]
    exact ⟨rfl, rfl, rfl⟩
  · rw [loss_halted ha]
    exact ⟨rfl, rfl, rfl⟩

theorem exec_lossTimerExpiry (h : Counting s) : exec .lossTimerExpiry s = .next (lossExpiry s) := by
  simp only [exec, execLossTimerExpiry, whileCounting, h.1, h.2, Bool.and_self, if_true]

end

/-- Settles O11: what a loss does in each array state is `loss_active`, `loss_phase`, `loss_muting`, `loss_mutedAlready` and
`loss_halted`. -/
theorem lossTimerExpiryDropsTheRing : Obligations.LossTimerExpiryDropsTheRing := by
  intro s hcount
  rw [exec_lossTimerExpiry hcount]
  refine ⟨fun hhunt => congrArg _ (if_pos hhunt), fun hrecv => ⟨loseRing s, congrArg _ (if_neg hrecv), ?_⟩⟩
  have hlost := loseRing_lost s
  refine ⟨hlost.rif, by rw [hlost.dsy]; rfl, fun k => by rw [hlost.dsy]; exact ringDropped_tower s k, hlost.seq, hlost.frame,
    hlost.pst, hlost.ldu, hlost.units, loss_tells, loss_stays, hlost.history, fun p ha => ?_, fun c hc => ?_, fun ha => ?_,
    fun ha => ?_, fun h ha => ?_⟩
  · rw [loss_active ha]
    exact ⟨rfl, rfl, rfl, rfl, rfl⟩
  · obtain ⟨step, hv⟩ := haltView_phase hc
    rw [loss_phase hc hv]
    refine ⟨rfl, rfl, _, rfl, rfl, rfl, rfl, rfl, rfl, rfl, rfl, rfl, rfl, fun v hv' => ?_, fun r rs hr => ?_, allAtRest_iff _,
      rfl⟩
    · obtain rfl : viewOf step c = v := Option.some.inj (hv.symm.trans hv')
      rfl
    · exact congrArg countHalt hr
  · rw [loss_muting ha]
    exact ⟨rfl, rfl, rfl, rfl⟩
  · rw [loss_mutedAlready ha]
    exact ⟨rfl, rfl⟩
  · rw [loss_halted ha]
    exact ⟨rfl, _, rfl, Bool.or_eq_true_iff.trans (or_congr_right (allAtRest_iff _)), rfl⟩

end Sys2Proof.Machine
end

section
/-! SUPPORT. What RIF does with MGMT, RELEASE and EMPTY frames, and the words of the records that a REPORT frame carries. -/
namespace Sys2Proof.Machine

/-! ## MGMT frames (R159, R165) -/

section
variable {rx : Rx} {s : State} {m : Mgmt}

theorem whole_of_parseMgmt (h : parseMgmt rx = some m) : rx.aborted = false := by
  unfold parseMgmt at h
  split at h
  next hws => exact whole_of_checkedWords hws
  next => cases h

theorem forThisUnit_iff (s : State) (m : Mgmt) : forThisUnit s m = true
    ↔ (m.dest = s.rif.addr ∨ m.dest = 0) ∧ m.source ≠ 0 ∧ m.params.length ≤ 56 := by
  simp only [forThisUnit, Bool.and_eq_true, Bool.or_eq_true, beq_iff_eq, bne_iff_ne, decide_eq_true_eq, and_assoc]

/-- A whole MGMT frame for this unit in its slot closes it and is handed to CMU (R159; log 16). -/
theorem receiveMgmt_taken (hm : parseMgmt rx = some m) (hopen : s.rif.slotOpen = true) (hrecv : s.rif.recv ≠ .hunt)
    (hfor : forThisUnit s m = true) :
    receiveMgmt rx s = enqueue m (s.setRif { s.rif with slotOpen := false, out := some rx }) := by
  have htakes := (slotTakes_iff s).2 ⟨hopen, hrecv⟩
  simp only [receiveMgmt, hm, htakes, hfor, Bool.and_self, if_true, passMessage, whole_of_parseMgmt hm, Bool.and_false]

theorem receiveMgmt_passed (h : s.rif.slotOpen = false ∨ s.rif.recv = .hunt ∨
    ∀ m, parseMgmt rx = some m → (m.dest ≠ s.rif.addr ∧ m.dest ≠ 0) ∨ m.source = 0 ∨ 56 < m.params.length) :
    receiveMgmt rx s = passMessage rx s := by
  unfold receiveMgmt
  split
  next m hm =>
    refine if_neg fun htakes => ?_
    obtain ⟨hslot, hfor⟩ := Bool.and_eq_true_iff.1 htakes
    obtain ⟨hopen, hrecv⟩ := (slotTakes_iff s).1 hslot
    obtain ⟨hdest, hsource, hcount⟩ := (forThisUnit_iff s m).1 hfor
    rcases h with h | h | h
    · rw [hopen] at h
      cases h
    · exact hrecv h
    · rcases h m hm with ⟨haddr, hall⟩ | h | h
      · exact hdest.elim haddr hall
      · exact hsource h
      · exact absurd hcount (Nat.not_le.2 h)
  next => rfl

theorem exec_mgmtFrame (h : s.running = true) (rx : Rx) : exec (.mgmtFrame rx) s = .next (receiveMgmt rx s) :=
  congrArg Host.Outcome.next (if_pos h)

end

/-- Settles O13: a frame is handed to CMU by `receiveMgmt_taken`, which queues it where there is room, and passes by
`receiveMgmt_passed`. -/
theorem mgmtFrameJoinsTheCommandQueue : Obligations.MgmtFrameJoinsTheCommandQueue := by
  intro rx s hrun
  rw [exec_mgmtFrame hrun]
  refine ⟨fun m hm hopen hrecv hdest hsource hcount => ?_, fun h => congrArg _ (receiveMgmt_passed h)⟩
  rw [receiveMgmt_taken hm hopen hrecv ((forThisUnit_iff s m).2 ⟨hdest, hsource, hcount⟩)]
  exact ⟨fun hroom => congrArg _ (if_pos hroom), fun hfull => congrArg _ (if_neg (Nat.not_lt.2 hfull))⟩

/-! ## REPORT frames (R161) -/

/-- How many words these records take in a REPORT frame. -/
def wordCount (rs : List Record) : Nat := (rs.map fun r => r.words.length).foldr (· + ·) 0

theorem wordCount_cons (r : Record) (rs : List Record) : wordCount (r :: rs) = r.words.length + wordCount rs := rfl

/-- As many records as fit: no more than the slots and the room allow, and one more would not fit (R161). -/
theorem fitCount_spec (slots room : Nat) (rs : List Record) :
    fitCount slots room rs ≤ slots ∧ fitCount slots room rs ≤ rs.length
    ∧ wordCount (rs.take (fitCount slots room rs)) ≤ room
    ∧ (fitCount slots room rs < slots → fitCount slots room rs < rs.length →
        room < wordCount (rs.take (fitCount slots room rs + 1))) := by
  induction slots generalizing room rs with
  | zero => exact ⟨Nat.le_refl 0, Nat.zero_le _, Nat.zero_le _, fun h => absurd h (Nat.lt_irrefl 0)⟩
  | succ slots ih =>
    cases rs with
    | nil => exact ⟨Nat.zero_le _, Nat.le_refl 0, Nat.zero_le _, fun _ h => absurd h (Nat.lt_irrefl 0)⟩
    | cons r rs =>
      by_cases hfits : r.words.length ≤ room
      · obtain ⟨hslots, hlength, hroom, hmore⟩ := ih (room - r.words.length) rs
        have hcount : fitCount (slots + 1) room (r :: rs) = fitCount slots (room - r.words.length) rs + 1 :=
          (if_pos hfits).trans (Nat.add_comm ..)
        rw [hcount, List.take_succ_cons, List.take_succ_cons, wordCount_cons, wordCount_cons, List.length_cons]
        refine ⟨by omega, by omega, by omega, fun h1 h2 => ?_⟩
        have := hmore (by omega) (by omega)
        omega
      · have hcount : fitCount (slots + 1) room (r :: rs) = 0 := if_neg hfits
        rw [hcount]
        refine ⟨Nat.zero_le _, Nat.zero_le _, Nat.zero_le _, fun _ _ => ?_⟩
        exact Nat.lt_of_not_le hfits

theorem reportWords_take (addr : BitVec 5) (overflow : Bool) {n : Nat} {rs : List Record} (h : n ≤ rs.length) :
    reportWords addr overflow (rs.take n)
      = 6 :: word (addr.toNat + (if overflow then 256 else 0) + 4096 * n) :: (rs.take n).flatMap Record.words := by
  unfold reportWords
  rw [List.length_take_of_le h]
  rfl

/-! ## RELEASE and EMPTY (R158, R160 to R162) -/

section
variable {rx : Rx} {s : State}

theorem releaseSlot_iff (s : State) : releaseSlot s = true ↔ s.rif.slotOpen = true ∧ s.rif.recv = .good := by
  simp only [releaseSlot, Bool.and_eq_true, beq_iff_eq]

theorem takesRelease_iff (s : State) : takesRelease s = true
    ↔ s.rif.joined = true ∧ s.rif.reporting = true ∧ s.cmu.reports ≠ [] ∧ s.rif.held = false := by
  simp only [takesRelease, Bool.and_eq_true, Bool.not_eq_true', List.isEmpty_eq_false_iff, and_assoc]

theorem exec_releaseFrame (h : s.running = true) (rx : Rx) : exec (.releaseFrame rx) s = .next (receiveRelease rx s) :=
  congrArg Host.Outcome.next (if_pos h)

theorem exec_emptyFrame (h : s.running = true) (rx : Rx) : exec (.emptyFrame rx) s = .next (receiveEmpty rx s) :=
  congrArg Host.Outcome.next (if_pos h)

/-- A valid RELEASE in its slot (R160, R161). -/
theorem receiveRelease_slot (hrx : isRelease rx = true) (hopen : s.rif.slotOpen = true) (hgood : s.rif.recv = .good) :
    receiveRelease rx s = if s.rif.joined then (if takesRelease s then takeRelease (passMessage rx s) else passMessage rx s)
      else join (passMessage rx s) :=
  if_pos (by rw [hrx, (releaseSlot_iff s).2 ⟨hopen, hgood⟩]; rfl)

/-- What is no valid RELEASE, or none in its slot in GOOD, is forwarded (R158). -/
theorem receiveRelease_passed (h : isRelease rx = false ∨ s.rif.slotOpen = false ∨ s.rif.recv ≠ .good) :
    receiveRelease rx s = passMessage rx s := by
  refine if_neg fun htakes => ?_
  obtain ⟨hrx, hslot⟩ := Bool.and_eq_true_iff.1 htakes
  obtain ⟨hopen, hgood⟩ := (releaseSlot_iff s).1 hslot
  rcases h with h | h | h
  · rw [hrx] at h
    cases h
  · rw [hopen] at h
    cases h
  · exact h hgood

/-- A held release leaves in place of a valid EMPTY in its slot (R162). -/
theorem receiveEmpty_held (hrx : isEmpty rx = true) (hopen : s.rif.slotOpen = true) (hgood : s.rif.recv = .good)
    (hheld : s.rif.held = true) : receiveEmpty rx s
      = (passMessage rx s).setRif { (passMessage rx s).rif with held := false, out := some (sealWords [5]) } :=
  if_pos (by rw [hrx, (releaseSlot_iff s).2 ⟨hopen, hgood⟩, hheld]; rfl)

theorem receiveEmpty_passed (h : isEmpty rx = false ∨ s.rif.slotOpen = false ∨ s.rif.recv ≠ .good ∨ s.rif.held = false) :
    receiveEmpty rx s = passMessage rx s := by
  refine if_neg fun htakes => ?_
  obtain ⟨hvalid, hheld⟩ := Bool.and_eq_true_iff.1 htakes
  obtain ⟨hrx, hslot⟩ := Bool.and_eq_true_iff.1 hvalid
  obtain ⟨hopen, hgood⟩ := (releaseSlot_iff s).1 hslot
  rcases h with h | h | h | h
  · rw [hrx] at h
    cases h
  · rw [hopen] at h
    cases h
  · exact h hgood
  · rw [hheld] at h
    cases h

/-- A RELEASE that is taken leaves as a REPORT of the records that fit (R161). -/
theorem takeRelease_eq (rx : Rx) (s : State) : let n := fitCount 12 59 s.cmu.reports
    takeRelease (passMessage rx s) = ((passMessage rx s).setRif { (passMessage rx s).rif with
      held := true
      out := some (sealWords (6 :: word (s.rif.addr.toNat + (if s.cmu.overflow then 256 else 0) + 4096 * n)
        :: (s.cmu.reports.take n).flatMap Record.words)) }).setCmu { s.cmu with reports := s.cmu.reports.drop n } := by
  intro n
  have hlength : n ≤ s.cmu.reports.length := (fitCount_spec ..).2.1
  rw [← reportWords_take s.rif.addr s.cmu.overflow hlength]
  rfl

end

/-! ## The words of a record (R169, R171, R176, 11.3) -/

/-- A word of two bytes. -/
theorem byteWord_fields {a b : Nat} (ha : a < 256) (hb : b < 256) :
    field (word (a + 256 * b)) 0 8 = a ∧ field (word (a + 256 * b)) 8 8 = b := by
  rw [field_word (by omega), field_word (by omega)]
  omega

theorem OutcomeCode.code_lt (o : OutcomeCode) : o.code < 256 := by cases o <;> decide

theorem NoticeKind.code_lt (k : NoticeKind) : k.code < 64 := by cases k <;> decide

theorem Record.ret_words {d : List Word} (hd : d.length ≤ 48) (tag : BitVec 8) (source : BitVec 3) (code : BitVec 8)
    (o : OutcomeCode) : let w := fun k => (Record.ret tag source code o d).words.getD k 0
    (w 0).toNat = d.length ∧ field (w 1) 0 8 = tag.toNat ∧ field (w 1) 8 3 = source.toNat ∧ field (w 1) 11 5 = 0
    ∧ field (w 2) 0 8 = code.toNat ∧ field (w 2) 8 8 = o.code := by
  have htag := tag.isLt
  have hsource := source.isLt
  obtain ⟨hcode, houtcome⟩ := byteWord_fields code.isLt o.code_lt
  have hsender : ∀ lo len, field (word (tag.toNat + 256 * source.toNat)) lo len
      = (tag.toNat + 256 * source.toNat) / 2 ^ lo % 2 ^ len := field_word (by omega)
  refine ⟨?_, (hsender ..).trans ?_, (hsender ..).trans ?_, (hsender ..).trans ?_, hcode, houtcome⟩
  · exact (word_toNat (by omega)).trans (Nat.mod_eq_of_lt (by omega))
  all_goals omega

/-- A frame number of a record, absent as 0 (R176). -/
theorem joinWords_optFrameWords (n : Option FrameNum) :
    joinWords ((optFrameWords n).getD 0 0) ((optFrameWords n).getD 1 0) = n.getD 0 := by
  cases n with
  | none => rfl
  | some f => exact joinWords_twoWords f

/-- The details of a notice stand in four words, those that it lacks zero. -/
theorem detailWords_eq {d : List Word} (hd : d.length ≤ 4) :
    (d ++ List.replicate (4 - d.length) 0).take 4 = [d.getD 0 0, d.getD 1 0, d.getD 2 0, d.getD 3 0] := by
  match d, hd with
  | [], _ | [_], _ | [_, _], _ | [_, _, _], _ | [_, _, _, _], _ => rfl
  | _ :: _ :: _ :: _ :: _ :: _, hd =>
    simp only [List.length_cons] at hd
    omega

/-- The number that the first word of a notice holds: bit 15, the absence of a frame number in bit 14, the kind, and the label
character or 0 (11.3). -/
def noticeHead (absent : Bool) (kind char : Nat) : Nat := 32768 + (if absent then 16384 else 0) + 256 * kind + char

/-- The first word of a notice: bit 15, the absence of a frame number, the kind, a label character (11.3). -/
theorem noticeWord_fields {k c : Nat} (hk : k < 64) (hc : c < 256) (absent : Bool) :
    (word (noticeHead absent k c)).getLsbD 15 = true ∧ (word (noticeHead absent k c)).getLsbD 14 = absent
    ∧ field (word (noticeHead absent k c)) 8 6 = k ∧ field (word (noticeHead absent k c)) 0 8 = c := by
  have hhead : noticeHead absent k c = 32768 + 16384 * absent.toNat + 256 * k + c := by cases absent <;> rfl
  have habsent : absent.toNat ≤ 1 := by cases absent <;> decide
  have hsmall : noticeHead absent k c < 65536 := by omega
  rw [bit_word hsmall, bit_word hsmall, field_word hsmall, field_word hsmall, hhead]
  refine ⟨decide_eq_true (by omega), ?_, by omega, by omega⟩
  cases absent
  · exact decide_eq_false (by simp only [Bool.toNat_false]; omega)
  · exact decide_eq_true (by simp only [Bool.toNat_true]; omega)

/-- A character of a label that may be absent. -/
theorem labelByte (l : Option Label) {i : Nat} (hi : i < 4) : (l.map fun x => (labelChar x i).toNat).getD 0 < 256
    ∧ (l.map fun x => (labelChar x i).toNat).getD 0 = (l.map fun x => x.toNat / 256 ^ (3 - i) % 256).getD 0 := by
  cases l with
  | none => exact ⟨Nat.zero_lt_succ 255, rfl⟩
  | some x => exact ⟨(labelChar x i).isLt, labelChar_toNat x hi⟩

theorem subjectByte_lt (b : Option (BitVec 8)) : (b.map (·.toNat)).getD 255 < 256 := by
  cases b with
  | none => decide
  | some x => exact x.isLt

/-- The eight words of a notice one by one (11.3). -/
theorem noticeWords_eq (k : NoticeKind) (n : Option FrameNum) (b : Option (BitVec 8)) (l : Option Label) {d : List Word}
    (hd : d.length ≤ 4) : (Record.notice k n b l d).words =
      [word (noticeHead n.isNone k.code ((l.map fun x => (labelChar x 2).toNat).getD 0)), (optFrameWords n).getD 0 0,
       (optFrameWords n).getD 1 0,
       word ((b.map (·.toNat)).getD 255 + 256 * (l.map fun x => (labelChar x 3).toNat).getD 0), d.getD 0 0, d.getD 1 0,
       d.getD 2 0, d.getD 3 0] := by
  rw [Record.words, detailWords_eq hd, optFrameWords_eq]
  rfl

/-- The fields of a notice in its words (11.3). -/
theorem noticeWords_fields (k : NoticeKind) (n : Option FrameNum) (b : Option (BitVec 8)) (l : Option Label) {d : List Word}
    (hd : d.length ≤ 4) : let w := fun i => (Record.notice k n b l d).words.getD i 0
    (Record.notice k n b l d).words.length = 8
    ∧ (w 0).getLsbD 15 = true ∧ ((w 0).getLsbD 14 = true ↔ n = none) ∧ field (w 0) 8 6 = k.code
    ∧ field (w 0) 0 8 = (l.map fun x => x.toNat / 256 % 256).getD 0
    ∧ joinWords (w 1) (w 2) = n.getD 0
    ∧ field (w 3) 0 8 = (b.map (·.toNat)).getD 255 ∧ field (w 3) 8 8 = (l.map fun x => x.toNat % 256).getD 0
    ∧ ∀ i, i < 4 → w (4 + i) = d.getD i 0 := by
  obtain ⟨hthird, hthird'⟩ := labelByte l (i := 2) (by decide)
  obtain ⟨hfourth, hfourth'⟩ := labelByte l (i := 3) (by decide)
  obtain ⟨hnotice, habsent, hkind, hchar⟩ := noticeWord_fields k.code_lt hthird n.isNone
  obtain ⟨hsubject, hlabel⟩ := byteWord_fields (subjectByte_lt b) hfourth
  intro w
  have hw : w = fun i => (Record.notice k n b l d).words.getD i 0 := rfl
  rw [noticeWords_eq k n b l hd] at hw ⊢
  rw [hw]
  refine ⟨rfl, hnotice, ?_, hkind, hchar.trans ?_, joinWords_optFrameWords n, hsubject, hlabel.trans ?_, fun i hi => ?_⟩
  · rw [← Option.isNone_iff_eq_none]
    exact Eq.congr_left habsent
  · simpa using hthird'
  · simpa [Nat.div_one] using hfourth'
  · match i, hi with
    | 0, _ | 1, _ | 2, _ | 3, _ => rfl

/-- Settles O17: RELEASE and EMPTY by `receiveRelease_slot`, `takeRelease_eq` and `receiveEmpty_held`, with the count of
`fitCount_spec`; the words of records by `Record.ret_words` and `noticeWords_fields`. -/
theorem releaseAndEmptyCarryTheReports : Obligations.ReleaseAndEmptyCarryTheReports := by
  refine ⟨fun rx s hrun => ?_, fun tag source code o d hd => ⟨rfl, ?_, Record.ret_words hd tag source code o⟩,
    fun k n b l d hd => noticeWords_fields k n b l hd, rfl, rfl⟩
  · intro u
    rw [exec_releaseFrame hrun, exec_emptyFrame hrun]
    refine ⟨fun hrx hopen hgood => ?slot, fun h => congrArg _ (receiveRelease_passed h),
      fun hrx hopen hgood hheld => congrArg _ (receiveEmpty_held hrx hopen hgood hheld),
      fun h => congrArg _ (receiveEmpty_passed h)⟩
    case slot =>
      rw [receiveRelease_slot hrx hopen hgood]
      refine ⟨fun hjoined => ?_, fun hjoined hreporting hreports hheld => ?_, fun hjoined h => ?_⟩
      · rw [hjoined]
        rfl
      · obtain ⟨hslots, hlength, hroom, hmore⟩ := fitCount_spec 12 59 s.cmu.reports
        refine ⟨_, hslots, hlength, hroom, hmore, ?_⟩
        rw [if_pos hjoined, if_pos ((takesRelease_iff s).2 ⟨hjoined, hreporting, hreports, hheld⟩), takeRelease_eq]
        rfl
      · have hkept : ¬ takesRelease s = true := by
          rw [takesRelease_iff]
          rintro ⟨_, hreporting, hreports, hheld⟩
          rcases h with h | h | h
          · rw [hreporting] at h
            cases h
          · exact hreports h
          · rw [hheld] at h
            cases h
        rw [if_pos hjoined, if_neg hkept]
        rfl
  · exact List.length_append ..

end Sys2Proof.Machine
end

section
/-! SUPPORT. Ring frames as they are sent and received, and the check word bit by bit. -/
namespace Sys2Proof.Machine

/-! ## Frames and their check words (R152, R153) -/

/-! ### What the receiver reads -/

section
variable {rx : Rx} {ws : List Word}

/-- A frame whose last word is not its check word is not valid. -/
theorem checkedWords_wrong {c : Word} (h : c ≠ checkWord ws) : checkedWords { words := ws ++ [c], aborted := false } = none := by
  unfold checkedWords
  simp [h]

theorem checkedWords_aborted (ws : List Word) : checkedWords { words := ws, aborted := true } = none := rfl

theorem parseMgmt_sealWords (k w0 w1 n : Word) (ps : List Word) : parseMgmt (sealWords (k :: w0 :: w1 :: n :: ps))
    = if k = 3 ∧ ps.length = n.toNat then
        some { dest := w0.extractLsb' 0 5, source := w0.extractLsb' 8 3, tag := w1.extractLsb' 0 8,
               code := w1.extractLsb' 8 8, params := ps }
      else none := by
  unfold parseMgmt
  rw [checkedWords_sealWords]

theorem parseSample_sealWords (k hi lo ref : Word) (env : List Word) : parseSample (sealWords (k :: hi :: lo :: ref :: env))
    = if k = 1 ∧ env.length = 48 then some { number := joinWords hi lo, reference := ref, envelope := env } else none := by
  unfold parseSample
  rw [checkedWords_sealWords]

theorem parseTime_sealWords (k y d hi lo : Word) : parseTime (sealWords [k, y, d, hi, lo])
    = if k = 4 then some { year := y, monthDay := d, secHi := hi, secLo := lo } else none := by
  unfold parseTime
  rw [checkedWords_sealWords]

theorem isRelease_sealWords (ws : List Word) : isRelease (sealWords ws) = true ↔ ws = [5] := by
  rw [isRelease, checkedWords_sealWords, beq_iff_eq, Option.some_inj]

theorem isEmpty_sealWords (ws : List Word) : isEmpty (sealWords ws) = true ↔ ws = [2] := by
  rw [isEmpty, checkedWords_sealWords, beq_iff_eq, Option.some_inj]

theorem parseTime_length (h : ws.length ≠ 5) : parseTime (sealWords ws) = none := by
  unfold parseTime
  rw [checkedWords_sealWords]
  split
  next hws =>
    rw [Option.some.inj hws] at h
    exact absurd rfl h
  next => rfl

theorem parseMgmt_short (h : ws.length < 4) : parseMgmt (sealWords ws) = none := by
  unfold parseMgmt
  rw [checkedWords_sealWords]
  split
  next hws =>
    rw [Option.some.inj hws] at h
    simp only [List.length_cons] at h
    omega
  next => rfl

theorem parseSample_short (h : ws.length < 4) : parseSample (sealWords ws) = none := by
  unfold parseSample
  rw [checkedWords_sealWords]
  split
  next hws =>
    rw [Option.some.inj hws] at h
    simp only [List.length_cons] at h
    omega
  next => rfl

/-- What is no whole frame with its check word is none of the five. -/
theorem parse_unchecked (h : checkedWords rx = none) : parseMgmt rx = none ∧ parseSample rx = none ∧ parseTime rx = none
    ∧ isRelease rx = false ∧ isEmpty rx = false := by
  refine ⟨?_, ?_, ?_, ?_, ?_⟩
  · rw [parseMgmt, h]
  · rw [parseSample, h]
  · rw [parseTime, h]
  · rw [isRelease, h]
    rfl
  · rw [isEmpty, h]
    rfl

end

/-! ### What the layouts write (R176, 11.2) -/

/-- A word of two fields that do not meet: the low one of n bits, the high one of m bits from bit 8. -/
theorem fields_extract {n m : Nat} (hn : n ≤ 8) (hm : m ≤ 8) (a : BitVec n) (b : BitVec m) :
    (a.setWidth 16 ||| b.setWidth 16 <<< 8).extractLsb' 0 n = a ∧ (a.setWidth 16 ||| b.setWidth 16 <<< 8).extractLsb' 8 m = b := by
  constructor
  · refine BitVec.eq_of_getLsbD_eq fun i hi => ?_
    have hlow : i < 8 := by omega
    have hword : i < 16 := by omega
    simp [hi, hlow, hword]
  · refine BitVec.eq_of_getLsbD_eq fun i hi => ?_
    have hlow : a.getLsbD (8 + i) = false := BitVec.getLsbD_of_ge _ _ (by omega)
    have hword : 8 + i < 16 := by omega
    simp [hi, hlow, hword]

theorem parseMgmt_mgmtWords {m : Mgmt} (h : m.params.length ≤ 56) : parseMgmt (sealWords (mgmtWords m)) = some m := by
  obtain ⟨hdest, hsource⟩ := fields_extract (by decide) (by decide) m.dest m.source
  obtain ⟨htag, hcode⟩ := fields_extract (by decide) (by decide) m.tag m.code
  unfold mgmtWords
  rw [parseMgmt_sealWords, if_pos ⟨rfl, (word_toNat (by omega)).symm⟩, hdest, hsource, htag, hcode]

theorem parseSample_sampleWords {f : Sample} (h : f.envelope.length = 48) : parseSample (sealWords (sampleWords f)) = some f := by
  refine (parseSample_sealWords ..).trans ((if_pos ⟨rfl, h⟩).trans ?_)
  rw [show joinWords (f.number.extractLsb' 16 16) (f.number.extractLsb' 0 16) = f.number from joinWords_twoWords f.number]

theorem twoWords_eq (f : BitVec 32) :
    twoWords f = [BitVec.ofNat 16 (f.toNat / 65536), BitVec.ofNat 16 (f.toNat % 65536)] := by
  have hhigh : f.extractLsb' 16 16 = BitVec.ofNat 16 (f.toNat / 65536) := by
    rw [BitVec.extractLsb', Nat.shiftRight_eq_div_pow]
  have hlow : f.extractLsb' 0 16 = BitVec.ofNat 16 (f.toNat % 65536) := by
    apply BitVec.eq_of_toNat_eq
    simp
  rw [twoWords, hhigh, hlow]

theorem signedWord_toInt {i : Int} (hlow : -32768 ≤ i) (hhigh : i ≤ 32767) : (signedWord i).toInt = i := by
  rw [signedWord, BitVec.toInt_ofInt]
  exact Int.bmod_eq_of_le (by omega) (by omega)

/-! ### The check word (R153) -/

/-- One bit into the register: shifted, and the polynomial taken off where the bit shifted out differs from the one taken in. -/
theorem crcBit_eq (r : Word) (b : Bool) : crcBit r b
    = if r.getLsbD 15 = b then r <<< 1 else (r <<< 1) ^^^ BitVec.ofNat 16 (2 ^ 12 + 2 ^ 5 + 1) := by
  have hmsb : r.msb = r.getLsbD 15 := rfl
  rw [crcBit, hmsb]
  cases r.getLsbD 15 <;> cases b <;> rfl

/-- The register goes over the bits of the words one after the other. -/
theorem crcWords_eq_bits (r : Word) (ws : List Word) : crcWords r ws = (ws.flatMap wordBits).foldl crcBit r := by
  rw [crcWords_eq_foldl, List.foldl_flatMap]
  rfl

/-- Settles O18: each frame is read by its `_sealWords` lemma, the layouts by `fields_extract`, `joinWords_twoWords` and
`twoWords_eq`, and the check word bit by bit (`crcWords_eq_bits`). -/
theorem framesAreReceivedAsSent : Obligations.FramesAreReceivedAsSent := by
  refine ⟨fun ws _ => checkedWords_sealWords ws, fun ws c h => checkedWords_wrong h, checkedWords_aborted,
    fun m => parseMgmt_mgmtWords, fun f => parseSample_sampleWords, fun b => parseTime_sealWords 4 _ _ _ _,
    fun ws => ⟨isRelease_sealWords ws, isEmpty_sealWords ws, parseTime_length, fun h => ⟨parseMgmt_short h, parseSample_short h⟩⟩,
    parseMgmt_sealWords, parseSample_sealWords, parseTime_sealWords, fun rx => parse_unchecked, fun n => ⟨rfl, rfl⟩,
    fun w lo len => rfl, fun k => rfl, rfl, fun f => ⟨twoWords_eq f, rfl⟩, joinWords_toNat, rfl,
    fun i => signedWord_toInt, fun ws => ?_⟩
  intro bits shifted
  have hbit : crcBit = shifted := funext fun r => funext fun b => crcBit_eq r b
  rw [checkWord, crcWords_eq_bits, hbit]
  rfl

end Sys2Proof.Machine
end

section
/-! SUPPORT. RIF, CMU, TXE and DSY after power-on reset and after RESTART. -/
namespace Sys2Proof.Machine

/-! ## Power-on reset, RESET and RESTART (R36 to R38, R57, R158, R164, R174, R175) -/

theorem strapAddress_toNat (a : BitVec 4) : (strapAddress a).toNat = a.toNat + 1 := by
  have := a.isLt
  rw [strapAddress, BitVec.toNat_add, BitVec.toNat_setWidth]
  change (a.toNat % 2 ^ 5 + 1) % 2 ^ 5 = a.toNat + 1
  omega

/-- The address in UNIT_STARTED is the one that the straps give (R174). -/
theorem unitStarted_strap (a : BitVec 4) :
    unitStarted (strapAddress a) = .notice .unitStarted none none none [word (a.toNat + 1), 1] := by
  have haddr : (strapAddress a).setWidth 16 = word (a.toNat + 1) := by
    have hlt := a.isLt
    apply BitVec.eq_of_toNat_eq
    rw [BitVec.toNat_setWidth, strapAddress_toNat, word_toNat (by omega), Nat.mod_eq_of_lt (by omega)]
  rw [unitStarted, haddr]
  rfl

/-- In UNSET with nothing armed no slot is in use (R79). -/
theorem inUse_unset {x : Txe} (harray : x.array = .unset) (harmed : x.armed = none) (k : Slot) : x.inUse k = false := by
  rw [Txe.inUse, harray, harmed]
  rfl

theorem powerOn_tower (d : Dsy) (k : TowerIx) : d.powerOn.towers[k]
    = { Tower.reset with rdyLine := d.towers[k].rdyLine, debounce := startIf d.towers[k].rdyLine } := map_get ..

/-- A tower under REST at amplitude zero is at rest (R27). -/
theorem powerOn_atRest (d : Dsy) (k : TowerIx) : d.powerOn.atRest k = true := by
  rw [Dsy.atRest_iff, powerOn_tower]
  exact ⟨rfl, fun _ => TowerOrder.noConfusion⟩

theorem restart_tower (d : Dsy) (k : TowerIx) :
    d.restart.towers[k] = { d.towers[k] with order := .rest, clipNoticed := true } := by
  have hall : ∀ k : TowerIx, has (BitVec.allOnes 8) k = true := by decide
  rw [Dsy.restart, map_get, forceZero_tower, if_pos (hall k)]

/-- While RESET is asserted RIF receives nothing (R158, R164). -/
theorem whileRunning_stopped {s : State} (h : s.running = false) (f : State → State) : whileRunning f s = s :=
  if_neg (by rw [h]; exact Bool.noConfusion)

theorem closeNewest_closed {l : List HistRecord} (h : ∀ r ∈ l.head?, r.outcome ≠ .opened) (o : HistOutcome) (n : FrameNum) :
    closeNewest o n l = l := by
  cases l with
  | nil => rfl
  | cons r rs => exact if_neg (h r rfl)

/-- Settles O4: power-on and RESTART give each block its own value; the towers are `powerOn_tower` and `restart_tower`. -/
theorem ringCommandEngineAndDriveAtReset : Obligations.RingCommandEngineAndDriveAtReset := by
  refine ⟨fun a s => ?power, fun s => ?reset, fun m s hs => ?restart⟩
  case power =>
    have hcmu : (powerOn a s).cmu
        = { queue := [], reports := [.notice .unitStarted none none none [word (a.toNat + 1), 1]], overflow := false } := by
      rw [← unitStarted_strap]
      rfl
    have htower : ∀ k : TowerIx, (powerOn a s).dsy.towers[k] = _ := powerOn_tower s.dsy
    refine ⟨powerOn a s, rfl, rfl, rfl, rfl, rfl, rfl, rfl, rfl, rfl, rfl, rfl, strapAddress_toNat a, rfl, hcmu, rfl,
      inUse_unset rfl rfl, fun k => ?_, rfl, rfl, rfl, rfl, rfl, rfl, rfl, rfl, fun k => ?_⟩
    · rw [htower]
      exact ⟨rfl, rfl, rfl, powerOn_atRest s.dsy k, rfl, rfl⟩
    · rw [htower]
      exact ⟨rfl, rfl⟩
  case reset =>
    have hstopped : ∀ f, Host.Outcome.next (whileRunning f (resetHeld s)) = (.next (resetHeld s) : Result) := fun f =>
      congrArg _ (whileRunning_stopped rfl f)
    exact ⟨resetHeld s, rfl, rfl, fun rx => ⟨hstopped _, hstopped _, hstopped _, hstopped _, hstopped _⟩⟩
  case restart =>
    have hone : s.cmu.queue.take 1 = [m] := by
      obtain ⟨_, hhead, _⟩ := hs
      rw [List.take_one, hhead]
      rfl
    have hcmu : (finishCommand m (restartBody m s)).cmu = { queue := [], overflow := false, reports := [.ret m.tag m.source
        m.code .done [word s.cmu.reports.length, word (s.cmu.queue.length - 1)]] } := by
      have htail : (restartBody m s).1.cmu.queue.tail = [] := congrArg List.tail hone
      rw [finishCommand_state, State.setCmu_cmu, htail]
      rfl
    have hhistory : (finishCommand m (restartBody m s)).txe.history = closeNewest .abandoned s.txe.now s.txe.history := rfl
    refine ⟨_, exec_restart hs, rfl, hcmu, rfl, rfl, rfl, rfl, inUse_unset rfl rfl, fun h hs f hh hopen hf => ?_, fun hclosed => ?_,
      restart_tower s.dsy, rfl⟩
    · have hnow : s.txe.now = f := by rw [Txe.now, hf]; rfl
      rw [hhistory, hh, closeNewest_cons, if_pos hopen, hnow]
    · rw [hhistory, closeNewest_closed hclosed]

end Sys2Proof.Machine
end

section
/-! SUPPORT. The tests of the frame at the head of the Command Queue, in their order, and the rows that find another frame
there. -/
namespace Sys2Proof.Machine

/-! ## Tests of a command (R166, R167) -/

/-- The row that a code names serves its command, whatever the block that the command is handed to. -/
theorem exec_rowOf_code (c : Cmd) : ∃ body, ∀ s, exec (rowOf c.code) s = .next (whileRunning (serve c body) s) := by
  cases c <;> exact ⟨_, fun _ => rfl⟩

theorem rowOf_of_none {b : BitVec 8} (h : Cmd.ofCode b = none) : rowOf b = .unknownCommand := by rw [rowOf, h]

/-! ### The refusals -/

section
variable {c : Cmd} {m : Mgmt} {s : State}

theorem precheck_badAddress (hdest : m.dest = 0) (hc : c.broadcast = false) :
    precheck c m = some (answer .badAddress []) := if_pos ⟨hdest, hc⟩

/-- Past the address test the parameter count is tested. -/
theorem precheck_badCount (haddr : m.dest ≠ 0 ∨ c.broadcast = true) (hcount : c.admitsCount m.params.length = false) :
    precheck c m = some (answer .badParam [word m.params.length]) := by
  have hpass : ¬ (m.dest = 0 ∧ c.broadcast = false) := by simpa [or_iff_not_imp_left] using haddr
  rw [precheck, if_neg hpass, if_pos hcount]
  rfl

/-- Past both, the first word outside the command's ranges is named. -/
theorem precheck_badRange (haddr : m.dest ≠ 0 ∨ c.broadcast = true) (hcount : c.admitsCount m.params.length = true)
    {before after : List (Nat × Bool)} {k : Nat} (hranges : c.ranges m = before ++ (k, false) :: after)
    (hbefore : ∀ x ∈ before, x.2 = true) : precheck c m = some (answer .badParam [word k]) := by
  have hpass : ¬ (m.dest = 0 ∧ c.broadcast = false) := by simpa [or_iff_not_imp_left] using haddr
  have hfirst : (c.ranges m).find? (fun r => !r.2) = some (k, false) :=
    List.find?_eq_some_iff_append.2 ⟨rfl, before, after, hranges, fun x hx => by simp [hbefore x hx]⟩
  rw [precheck, if_neg hpass, if_neg (by simp [hcount]), hfirst]
  rfl

/-- A frame that fails a test is answered with that refusal, and reaches no block. -/
theorem exec_rowOf_refused (hrun : s.running = true) (hhead : s.cmu.queue.head? = some m) (hcode : m.code = c.code)
    {o : OutcomeCode} {d : List Word} (hrefused : precheck c m = some (answer o d)) :
    exec (rowOf m.code) s = .next (answered m o d s) := by
  obtain ⟨body, hrow⟩ := exec_rowOf_code c
  rw [hcode, hrow, serve_refused body hrun hhead ((Cmd.ofCode_iff ..).2 hcode) hrefused]
  rfl

theorem exec_unknownCommand (hrun : s.running = true) (hhead : s.cmu.queue.head? = some m) (hcode : Cmd.ofCode m.code = none) :
    exec .unknownCommand s = .next (answered m .unknown [] s) := by
  have hunknown : serveUnknown s = answered m .unknown [] s := by
    obtain ⟨ms, hqueue⟩ := List.head?_eq_some_iff.1 hhead
    rw [serveUnknown, hqueue]
    exact if_pos hcode
  exact congrArg Host.Outcome.next ((if_pos hrun).trans hunknown)

/-! ### Rows that another frame, or none, stands before (log 4) -/

theorem serve_other (body : Mgmt → State → State × Answer)
    (h : ∀ m, s.cmu.queue.head? = some m → Cmd.ofCode m.code ≠ some c) : serve c body s = s := by
  rw [serve]
  split
  next => rfl
  next m _ hqueue => exact if_neg (h m (by rw [hqueue]; rfl))

theorem serveUnknown_other (h : ∀ m, s.cmu.queue.head? = some m → Cmd.ofCode m.code ≠ none) : serveUnknown s = s := by
  rw [serveUnknown]
  split
  next => rfl
  next m _ hqueue => exact if_neg (h m (by rw [hqueue]; rfl))

theorem exec_rowOf_other {b : BitVec 8} (hrun : s.running = true)
    (h : ∀ m, s.cmu.queue.head? = some m → rowOf m.code ≠ rowOf b) : exec (rowOf b) s = .next s := by
  cases hb : Cmd.ofCode b with
  | none =>
    have hunserved := serveUnknown_other (s := s) fun m hm hnone =>
      h m hm ((rowOf_of_none hnone).trans (rowOf_of_none hb).symm)
    rw [rowOf_of_none hb]
    exact congrArg Host.Outcome.next ((if_pos hrun).trans hunserved)
  | some c =>
    obtain rfl := (Cmd.ofCode_iff b c).1 hb
    obtain ⟨body, hrow⟩ := exec_rowOf_code c
    have hunserved := serve_other body fun m hm hcode => h m hm (congrArg rowOf ((Cmd.ofCode_iff ..).1 hcode))
    rw [hrow]
    exact congrArg Host.Outcome.next ((if_pos hrun).trans hunserved)

end

/-! ### The command summary (R166, R167, 11.2) -/

theorem Cmd.broadcast_iff (c : Cmd) : c.broadcast = true ↔
    c ∈ [Cmd.status, .switch, .withdraw, .go, .mute, .ackFault, .scheduleHold, .reporting] := by
  cases c <;> decide

theorem Cmd.admitsCount_iff (c : Cmd) (n : Nat) : c.admitsCount n = true ↔
    (c ∈ [Cmd.status, .withdraw, .continueTx, .retreat, .ackFault, .clearOverflow, .restart] ∧ n = 0)
    ∨ (c ∈ [Cmd.mute, .move, .trimClear, .unclaim, .scheduleHold, .reporting] ∧ n = 1)
    ∨ (c ∈ [Cmd.commit, .finish] ∧ n = 2) ∨ (c ∈ [Cmd.go, .read] ∧ n = 3) ∨ (c = .claim ∧ n = 4)
    ∨ (c = .switch ∧ n = 6) ∨ (c = .load ∧ 3 ≤ n ∧ n ≤ 56) := by
  cases c <;> simp [Cmd.admitsCount]

/-- Settles O19: each test by the `precheck` lemma of its refusal, then `exec_rowOf_refused`; a row of another command by
`exec_rowOf_other`. -/
theorem commandsAreTestedInOrder : Obligations.CommandsAreTestedInOrder := by
  refine ⟨fun m s hrun hhead => ⟨fun hcode => ?unknown, fun c hcode => ⟨fun hdest hc => ?address,
    fun haddr => ⟨fun hcount => ?count, fun hcount before after k hranges hbefore => ?range⟩⟩⟩, fun b s hrun h => exec_rowOf_other hrun h, Cmd.broadcast_iff,
    ⟨rfl, rfl⟩, Cmd.ofCode_iff, fun b hb => rowOf_of_none (Cmd.ofCode_eq_none hb), Cmd.admitsCount_iff, Cmd.ranges_ascending⟩
  case unknown => exact exec_unknownCommand hrun hhead (Cmd.ofCode_eq_none hcode)
  case address => exact exec_rowOf_refused hrun hhead hcode (precheck_badAddress hdest hc)
  case count => exact exec_rowOf_refused hrun hhead hcode (precheck_badCount haddr hcount)
  case range => exact exec_rowOf_refused hrun hhead hcode (precheck_badRange haddr hcount hranges hbefore)

end Sys2Proof.Machine
end

section
/-! SUPPORT. Return records and notices as they enter the Report Queue; REPORTING and CLEAR_OVERFLOW. -/
namespace Sys2Proof.Machine

/-! ## The Report Queue (R168, R171, R172) -/

section
variable {s : State}

/-- The frame leaves the Command Queue, and its return record enters at the end. -/
theorem answered_room (h : s.cmu.reports.length < 32) (m : Mgmt) (o : OutcomeCode) (d : List Word) :
    answered m o d s = s.setCmu { s.cmu with
      queue := s.cmu.queue.tail, reports := s.cmu.reports ++ [.ret m.tag m.source m.code o d] } :=
  congrArg s.setCmu (Cmu.enter_of_room (c := { s.cmu with queue := s.cmu.queue.tail }) h _)

theorem answered_full (h : 32 ≤ s.cmu.reports.length) (m : Mgmt) (o : OutcomeCode) (d : List Word) :
    answered m o d s = s.setCmu { s.cmu with queue := s.cmu.queue.tail, overflow := true } :=
  congrArg s.setCmu (Cmu.enter_of_full (c := { s.cmu with queue := s.cmu.queue.tail }) h _)

theorem raise_room (h : s.cmu.reports.length < 32) (k : NoticeKind) (b : Option (BitVec 8)) (d : List Word) :
    s.raise k b d = s.setCmu { s.cmu with reports := s.cmu.reports ++ [.notice k s.stamp b none d] } :=
  congrArg s.setCmu (Cmu.enter_of_room h _)

theorem raise_full (h : 32 ≤ s.cmu.reports.length) (k : NoticeKind) (b : Option (BitVec 8)) (d : List Word) :
    s.raise k b d = s.setCmu { s.cmu with overflow := true } := congrArg s.setCmu (Cmu.enter_of_full h _)

/-! ## REPORTING and CLEAR_OVERFLOW (R163, R173) -/

variable {m : Mgmt}

theorem exec_reporting (h : Serves .reporting m s) :
    exec .reporting s = .next (answered m .done [] (s.setRif { s.rif with reporting := m.num 0 == 1 })) :=
  congrArg Host.Outcome.next (serve_served h reportingBody)

theorem exec_clearOverflow (h : Serves .clearOverflow m s) : exec .clearOverflow s
    = .next (answered m .done [word (flagBit s.cmu.overflow 0)] (s.setCmu { s.cmu with overflow := false })) :=
  congrArg Host.Outcome.next (serve_served h clearOverflowBody)

end

/-- The flag as a data word. -/
theorem word_flagBit_zero (b : Bool) : word (flagBit b 0) = if b then 1 else 0 := by cases b <;> rfl

/-- Settles O21: the queue with room and full (`Cmu.enter_of_room`, `Cmu.enter_of_full`), for each kind of record; the two
commands by what their blocks do. -/
theorem recordsEnterTheReportQueue : Obligations.RecordsEnterTheReportQueue := by
  refine ⟨fun r u => ⟨fun h => Cmu.enter_of_room h r, fun h => Cmu.enter_of_full h r⟩, fun r s => ⟨rfl, rfl⟩,
    fun m o d s => ⟨fun h => answered_room h m o d, fun h => answered_full h m o d⟩,
    fun k b d s => ⟨fun h => raise_room h k b d, fun h => raise_full h k b d⟩, fun m s hs => ⟨fun hon => ?_, fun hoff => ?_⟩,
    fun m s hs => ?_⟩
  · rw [exec_reporting hs, hon]
    rfl
  · rw [exec_reporting hs, hoff]
    rfl
  · rw [exec_clearOverflow hs, word_flagBit_zero]

end Sys2Proof.Machine
end

section
/-! SUPPORT. The words of STATUS one by one, and the fields of each. -/
namespace Sys2Proof.Machine

/-! ## Words built from bytes and bits (R176) -/

/-- Bit i of a field is bit lo + i of the word. -/
theorem testBit_field (w : Word) (lo len i : Nat) : (field w lo len).testBit i = (decide (i < len) && w.getLsbD (lo + i)) := by
  rw [field, Nat.testBit_mod_two_pow, Nat.testBit_div_two_pow, Nat.add_comm]
  rfl

theorem getLsbD_field {w : Word} {len i : Nat} (hi : i < len) (lo : Nat) :
    w.getLsbD (lo + i) = (field w lo len).testBit i := by
  rw [testBit_field, decide_eq_true hi, Bool.true_and]

/-- A field that lies in another one. -/
theorem field_field {lo len i n : Nat} (h : i + n ≤ len) (w : Word) : field w (lo + i) n = field w lo len / 2 ^ i % 2 ^ n := by
  refine Nat.eq_of_testBit_eq fun j => ?_
  rw [testBit_field, Nat.testBit_mod_two_pow, Nat.testBit_div_two_pow, testBit_field, Nat.add_assoc, Nat.add_comm i j]
  by_cases hj : j < n
  · rw [decide_eq_true (show j + i < len by omega), Bool.true_and]
  · rw [decide_eq_false hj, Bool.false_and, Bool.false_and]

/-- A flag held as the last bit of a number. -/
theorem decide_odd_eq {n : Nat} {b : Bool} (h : n % 2 = b.toNat) : decide (n % 2 = 1) = b := by
  rw [h]
  cases b <;> rfl

/-- A member of the set of the indexes that satisfy a test. -/
theorem has_setOf {n : Nat} (p : Fin n → Bool) (k : Fin n) : has (setOf p) k = p k := by
  have hstep : (fun (s : BitVec n) (i : Fin n) => if p i then s ||| BitVec.twoPow n i.val else s)
      = fun s i => s ||| if p i then BitVec.twoPow n i.val else 0 := by
    funext s i
    split
    · rfl
    · exact BitVec.or_zero.symm
  have hbit : ∀ i : Fin n, has (if p i then BitVec.twoPow n i.val else 0) k = true ↔ p i = true ∧ i = k := by
    intro i
    split
    next hi => simp [hi, has, Fin.ext_iff, eq_comm (a := k.val)]
    next hi => simp [hi]
  rw [Bool.eq_iff_iff, setOf, hstep, has_foldl_or]
  simp only [has_zero, Bool.false_eq_true, false_or, hbit, List.mem_finRange, true_and, exists_eq_right]

/-! ## STATUS (R170) -/

/-! ### Codes and bounds -/

theorem ArrayState.code_lt (a : ArrayState) : a.code < 256 := by cases a <;> simp [ArrayState.code]
theorem HaltReason.code_lt (r : HaltReason) : r.code < 256 := by cases r <;> decide
theorem Tolerance.code_lt (x : Tolerance) : x.code < 64 := by cases x <;> decide
theorem Clock.code_lt (c : Clock) : c.code < 4 := by cases c <;> simp [Clock.code]
theorem RecvState.code_lt (r : RecvState) : r.code < 4 := by cases r <;> decide

theorem HaltSubject.byte_lt (x : HaltSubject) : x.byte < 256 := by
  cases x with
  | none => decide
  | contactor c => exact c.isLt.trans (by decide)
  | tower t => exact t.isLt.trans (by decide)

theorem slotByte_lt (k : Option Slot) : slotByte k < 256 := by
  cases k with
  | none => decide
  | some k => exact k.isLt.trans (by decide)

/-- The contactors in trouble are the defined ones in STUCK or DISAGREE (R42). -/
theorem Ctu.troubled_eq (u : Ctu) : u.troubled = ((List.finRange 24).filter fun c : ContactorIx =>
    u.units[c].entry.any fun e => e.state == .stuck || e.state == .disagree).length := by
  refine congrArg List.length (List.filter_congr fun c _ => ?_)
  cases u.units[c].entry <;> rfl

theorem Ctu.troubled_le (u : Ctu) : u.troubled ≤ 24 := by
  rw [Ctu.troubled_eq]
  exact (List.length_filter_le ..).trans List.length_finRange.le

/-! ### The array state shown in words 1 to 7 -/

theorem ArrayState.activeSlot_none {a : ArrayState} (h : ∀ p, a ≠ .active p) : a.activeSlot = none := by
  cases a with
  | active p => exact absurd rfl (h p)
  | _ => rfl

theorem ArrayState.haltContext_none {a : ArrayState} (h : ∀ x, a ≠ .halted x) : a.haltContext = none := by
  cases a with
  | halted x => exact absurd rfl (h x)
  | _ => rfl

theorem optFrameWords_absent {n : Option FrameNum} (h : n = none) :
    (optFrameWords n).getD 0 0 = 0 ∧ (optFrameWords n).getD 1 0 = 0 := by
  rw [h]
  exact ⟨rfl, rfl⟩

/-- The halt reason of word 7, 0 where no halt stands (R170; log 30). -/
def haltReasonByte (h : Option HaltContext) : Nat := (h.map (·.reason.code)).getD 0

/-- The halt subject of word 7, 255 where no halt stands (R170; log 30). -/
def haltSubjectByte (h : Option HaltContext) : Nat := (h.map (·.subject.byte)).getD 255

theorem haltWord_fields (h : Option HaltContext) :
    field (word (haltReasonByte h + 256 * haltSubjectByte h)) 0 8 = haltReasonByte h
    ∧ field (word (haltReasonByte h + 256 * haltSubjectByte h)) 8 8 = haltSubjectByte h := by
  cases h with
  | none => exact byteWord_fields (by decide) (by decide)
  | some h => exact byteWord_fields h.reason.code_lt h.subject.byte_lt

/-- The claimed targets as a set (R137). -/
def Ldu.claimed (u : Ldu) : BitVec 18 := setOf fun t : Target => u.claims[t].isSome

/-- The 16 words one by one (11.3): active pattern, Armed Request and halt context each stand or are absent. -/
theorem statusWords_eq (s : State) : statusWords s =
    [word (s.rif.addr.toNat + 256 * 1), word (s.txe.array.code + 256 * slotByte s.txe.array.activeSlot),
     (optFrameWords (s.txe.array.activeSlot.map s.pst.label)).getD 0 0,
     (optFrameWords (s.txe.array.activeSlot.map s.pst.label)).getD 1 0,
     word (slotByte (s.txe.armed.map (·.target)) + 256 * slotByte s.txe.array.resume),
     (optFrameWords (s.txe.armed.map (·.frame))).getD 0 0, (optFrameWords (s.txe.armed.map (·.frame))).getD 1 0,
     word (haltReasonByte s.txe.array.haltContext + 256 * haltSubjectByte s.txe.array.haltContext), word (statusFlags s),
     word (towerByte s 0 + 256 * towerByte s 1), word (towerByte s 2 + 256 * towerByte s 3),
     word (towerByte s 4 + 256 * towerByte s 5), word (towerByte s 6 + 256 * towerByte s 7),
     word (s.ctu.troubled + 256 * s.cmu.reports.length), s.ldu.claimed.setWidth 16,
     (s.ldu.claimed.extractLsb' 16 2).setWidth 16] := by
  rw [statusWords]
  cases s.txe.array.activeSlot <;> cases s.txe.armed <;> cases s.txe.array.haltContext <;> rfl

/-! ### Flags and towers -/

/-- Word 8 field by field. -/
theorem statusFlags_fields (s : State) : let w := word (statusFlags s)
    field w 0 2 = s.rif.recv.code ∧ w.getLsbD 2 = s.rif.joined ∧ w.getLsbD 3 = s.rif.reporting
    ∧ w.getLsbD 4 = s.mon.present ∧ field w 5 2 = s.scu.clock.code ∧ w.getLsbD 7 = s.scu.hold
    ∧ w.getLsbD 8 = s.dsy.ilkClosed ∧ w.getLsbD 9 = s.cmu.overflow ∧ field w 10 6 = 0 := by
  have hrecv := s.rif.recv.code_lt
  have hclock := s.scu.clock.code_lt
  have hjoined := Bool.toNat_le s.rif.joined
  have hreporting := Bool.toNat_le s.rif.reporting
  have hpresent := Bool.toNat_le s.mon.present
  have hhold := Bool.toNat_le s.scu.hold
  have hilk := Bool.toNat_le s.dsy.ilkClosed
  have hoverflow := Bool.toNat_le s.cmu.overflow
  have hlt : statusFlags s < 65536 := by
    simp only [statusFlags, flagBit_eq]
    omega
  simp only [field_word hlt, bit_word hlt]
  simp only [statusFlags, flagBit_eq]
  refine ⟨by omega, decide_odd_eq (by omega), decide_odd_eq (by omega), decide_odd_eq (by omega), by omega,
    decide_odd_eq (by omega), decide_odd_eq (by omega), decide_odd_eq (by omega), by omega⟩

theorem towerByte_lt (s : State) (t : TowerIx) : towerByte s t < 256 := by
  have hrest := Bool.toNat_le (s.dsy.atRest t)
  have hready := Bool.toNat_le s.dsy.towers[t].ready
  have hstatus := s.mon.towers[t].status.code_lt
  rw [towerByte, flagBit_eq, flagBit_eq]
  omega

/-- A tower's byte: at rest, READY, and its tolerance status. -/
theorem towerByte_fields (s : State) (t : TowerIx) : (towerByte s t).testBit 0 = s.dsy.atRest t
    ∧ (towerByte s t).testBit 1 = s.dsy.towers[t].ready ∧ towerByte s t / 2 ^ 2 % 2 ^ 6 = s.mon.towers[t].status.code := by
  have hrest := Bool.toNat_le (s.dsy.atRest t)
  have hready := Bool.toNat_le s.dsy.towers[t].ready
  have hstatus := s.mon.towers[t].status.code_lt
  rw [towerByte, flagBit_eq, flagBit_eq, Nat.testBit_eq_decide_div_mod_eq, Nat.testBit_eq_decide_div_mod_eq]
  exact ⟨decide_odd_eq (by omega), decide_odd_eq (by omega), by omega⟩

/-- Two towers share each of the words 9 to 12. -/
theorem statusTower_byte (s : State) (t : TowerIx) :
    field ((statusWords s).getD (9 + t.val / 2) 0) (8 * (t.val % 2)) 8 = towerByte s t := by
  have pair (a b : TowerIx) := byteWord_fields (towerByte_lt s a) (towerByte_lt s b)
  rw [statusWords_eq]
  match t with
  | 0 => exact (pair 0 1).1
  | 1 => exact (pair 0 1).2
  | 2 => exact (pair 2 3).1
  | 3 => exact (pair 2 3).2
  | 4 => exact (pair 4 5).1
  | 5 => exact (pair 4 5).2
  | 6 => exact (pair 6 7).1
  | 7 => exact (pair 6 7).2

theorem statusTower_fields (s : State) (t : TowerIx) : let w := (statusWords s).getD (9 + t.val / 2) 0
    w.getLsbD (8 * (t.val % 2)) = s.dsy.atRest t ∧ w.getLsbD (8 * (t.val % 2) + 1) = s.dsy.towers[t].ready
    ∧ field w (8 * (t.val % 2) + 2) 6 = s.mon.towers[t].status.code := by
  intro w
  have hbyte : field w (8 * (t.val % 2)) 8 = towerByte s t := statusTower_byte s t
  obtain ⟨hrest, hready, hstatus⟩ := towerByte_fields s t
  refine ⟨?_, ?_, ?_⟩
  · exact (getLsbD_field (i := 0) (by decide) _).trans (hbyte ▸ hrest)
  · exact (getLsbD_field (i := 1) (by decide) _).trans (hbyte ▸ hready)
  · rw [field_field (len := 8) (by decide), hbyte, hstatus]

/-! ### Claimed targets -/

/-- Bit t of a set split into two words, low word first. -/
theorem getLsbD_joinWords_split (x : BitVec 18) (t : Target) :
    (joinWords ((x.extractLsb' 16 2).setWidth 16) (x.setWidth 16)).getLsbD t.val = has x t := by
  have ht := t.isLt
  rw [joinWords, BitVec.getLsbD_append, has]
  split
  next hlow => rw [BitVec.getLsbD_setWidth, decide_eq_true hlow, Bool.true_and]
  next hhigh =>
    rw [BitVec.getLsbD_setWidth, BitVec.getLsbD_extractLsb', decide_eq_true (show t.val - 16 < 16 by omega),
      decide_eq_true (show t.val - 16 < 2 by omega), Bool.true_and, Bool.true_and, Nat.add_sub_of_le (by omega)]

/-- A word of two bits has nothing above them. -/
theorem field_setWidth_two (x : BitVec 2) : field (x.setWidth 16) 2 14 = 0 := by
  have hx := x.isLt
  rw [field, BitVec.toNat_setWidth]
  omega

theorem exec_status {m : Mgmt} {s : State} (h : Serves .status m s) :
    exec .status s = .next (answered m .done (statusWords s) s) := congrArg Host.Outcome.next (serve_served h statusBody)

/-- Settles O22: the words one by one (`statusWords_eq`), each by the lemma about its fields. -/
theorem statusShowsTheUnit : Obligations.StatusShowsTheUnit := by
  refine ⟨fun m s => exec_status, fun c g e n p r h => rfl, rfl, fun k t => ⟨rfl, rfl⟩, rfl, rfl, fun d n => rfl, rfl,
    fun s hqueue => ⟨by rw [statusWords_eq]; rfl, ?_⟩⟩
  obtain ⟨-, hreports⟩ := hqueue
  obtain ⟨haddr, hversion⟩ := byteWord_fields (s.rif.addr.isLt.trans (by decide)) (show 1 < 256 by decide)
  obtain ⟨harray, hactive⟩ := byteWord_fields s.txe.array.code_lt (slotByte_lt s.txe.array.activeSlot)
  obtain ⟨harmed, hresume⟩ := byteWord_fields (slotByte_lt (s.txe.armed.map (·.target))) (slotByte_lt s.txe.array.resume)
  obtain ⟨hreason, hsubject⟩ := haltWord_fields s.txe.array.haltContext
  obtain ⟨hrecv, hjoined, hreporting, hpresent, hclock, hhold, hilk, hoverflow, hzero⟩ := statusFlags_fields s
  obtain ⟨htroubled, hlength⟩ := byteWord_fields (show s.ctu.troubled < 256 from s.ctu.troubled_le.trans_lt (by decide))
    (show s.cmu.reports.length < 256 by omega)
  have hlabel := joinWords_optFrameWords (s.txe.array.activeSlot.map s.pst.label)
  have hframe := joinWords_optFrameWords (s.txe.armed.map (·.frame))
  have htower := statusTower_fields s
  rw [statusWords_eq] at htower ⊢
  refine ⟨haddr, hversion, harray, fun p hp => ⟨hactive.trans ?_, hlabel.trans ?_⟩, fun hp => ⟨hactive.trans ?_, ?_⟩,
    fun a ha => ⟨harmed.trans ?_, hframe.trans ?_⟩, fun ha => ⟨harmed.trans ?_, ?_⟩, fun p hp => hresume.trans ?_,
    fun hp => hresume.trans ?_, fun h hh => ⟨hreason.trans ?_, hsubject.trans ?_⟩,
    fun hh => ⟨hreason.trans ?_, hsubject.trans ?_⟩, hrecv, hjoined, hreporting, hpresent, hclock, hhold, hilk, hoverflow,
    hzero, htower, htroubled.trans s.ctu.troubled_eq, hlength, field_setWidth_two _, fun t => ?_⟩
  · rw [hp]; rfl
  · rw [hp]; rfl
  · rw [ArrayState.activeSlot_none hp]; rfl
  · exact optFrameWords_absent (by rw [ArrayState.activeSlot_none hp]; rfl)
  · rw [ha]; rfl
  · rw [ha]; rfl
  · rw [ha]; rfl
  · exact optFrameWords_absent (by rw [ha]; rfl)
  · rw [hp]; rfl
  · rw [hp]; rfl
  · rw [hh]; rfl
  · rw [hh]; rfl
  · rw [ArrayState.haltContext_none hh]; rfl
  · rw [ArrayState.haltContext_none hh]; rfl
  · exact (getLsbD_joinWords_split _ t).trans (has_setOf _ t)

end Sys2Proof.Machine
end

section
/-! SUPPORT. What RESET and REFCLK stop: the gate of each row, and what each gate does while it is shut. -/
namespace Sys2Proof.Machine

/-! ## RESET, the pins and REFCLK (R177, R158) -/

theorem whileCounting_stopped {s : State} (h : s.running = false ∨ s.refclk = false) (f : State → State) :
    whileCounting f s = s :=
  if_neg (by rw [Bool.and_eq_true]; rintro ⟨hrun, hclock⟩; simp [hrun, hclock] at h)

/-! ### The rows by their gate -/

/-- The rows that act while RESET is asserted: those of power and clock, and those of the input lines (log 7). -/
def ActsInReset (i : Instr) : Prop :=
  (∃ a, i = .powerOnReset a) ∨ i = .resetAsserted ∨ i = .refclkStopped ∨ i = .refclkReturned ∨ i = .interlockOpening
    ∨ i = .interlockLineClosed ∨ (∃ k b, i = .rdyLineChange k b) ∨ ∃ c x b, i = .auxInputChange c x b

/-- A row of the interval timer counts only while the unit and REFCLK run. -/
theorem exec_of_isTimerRow {i : Instr} (h : isTimerRow i = true) : ∃ f, ∀ s, exec i s = .next (whileCounting f s) := by
  cases i with
  | missedFrame | localPaceFrame | lossTimerExpiry | interlockQualified | cabinetDebounceExpiry | auxDebounceExpiry
  | travelLimitExpiry | settleTimerExpiry | gateTimerExpiry | claimLapse | absenceTimerExpiry | holdOffExpiry
  | staleTimerExpiry => exact ⟨_, fun _ => rfl⟩
  | _ => cases h

/-- Every row acts in reset, or is one of the interval timer, or is taken only while the unit runs. -/
theorem actsInReset_or_gated (i : Instr) :
    ActsInReset i ∨ isTimerRow i = true ∨ ∃ f, ∀ s, exec i s = .next (whileRunning f s) := by
  cases i with
  | powerOnReset | resetAsserted | refclkStopped | refclkReturned | interlockOpening | interlockLineClosed | rdyLineChange
  | auxInputChange => exact .inl (by simp [ActsInReset])
  | missedFrame | localPaceFrame | lossTimerExpiry | interlockQualified | cabinetDebounceExpiry | auxDebounceExpiry
  | travelLimitExpiry | settleTimerExpiry | gateTimerExpiry | claimLapse | absenceTimerExpiry | holdOffExpiry
  | staleTimerExpiry => exact .inr (.inl rfl)
  | sampleFrame | mgmtFrame | timeFrame | releaseFrame | emptyFrame | status | switch | withdraw | go | continueTx | retreat
  | mute | move | ackFault | trimClear | scheduleHold | claim | load | commit | finish | unclaim | read | reporting
  | clearOverflow | restart | checkCompletion | monitorRecord | unknownCommand => exact .inr (.inr ⟨_, fun _ => rfl⟩)

/-- A stopped unit or a stopped REFCLK stops the rows of the interval timer (R177). -/
theorem exec_timerRow_stopped {i : Instr} {s : State} (hi : isTimerRow i = true)
    (h : s.running = false ∨ s.refclk = false) : exec i s = .next s := by
  obtain ⟨f, hexec⟩ := exec_of_isTimerRow hi
  rw [hexec, whileCounting_stopped h]

/-- While RESET is asserted any other row changes nothing. -/
theorem actsInReset_or_exec_eq {i : Instr} {s : State} (h : s.running = false) : ActsInReset i ∨ exec i s = .next s := by
  obtain hacts | htimer | ⟨f, hexec⟩ := actsInReset_or_gated i
  · exact .inl hacts
  · exact .inr (exec_timerRow_stopped htimer (.inl h))
  · exact .inr (by rw [hexec, whileRunning_stopped h])

/-! ### The pins while RESET is asserted -/

theorem resetHeld_line (s : State) (c : ContactorIx) : (resetHeld s).ctu.line c = false := by
  have hunit : (resetHeld s).ctu.units[c] = s.ctu.units[c].silent := map_get ..
  rw [Ctu.line, hunit]
  rfl

theorem resetHeld_port (s : State) (k : TowerIx) : (resetHeld s).dsy.towers[k].port = none := by
  have htower : (resetHeld s).dsy.towers[k] = { Tower.reset with rdyLine := s.dsy.towers[k].rdyLine } := map_get ..
  rw [htower]
  rfl

/-- Settles O6: the pins by what `resetHeld` and `powerOn` hold, the rows by their gates (`actsInReset_or_gated`). -/
theorem resetPinsAndReferenceClock : Obligations.ResetPinsAndReferenceClock := by
  refine ⟨fun s => ?asserted, fun a s => ?released, fun s => ⟨rfl, rfl⟩, fun i s => exec_timerRow_stopped,
    fun i s => actsInReset_or_exec_eq⟩
  case asserted => exact ⟨resetHeld s, rfl, rfl, rfl, rfl, resetHeld_line s, resetHeld_port s⟩
  case released => exact ⟨powerOn a s, rfl, rfl, rfl, strapAddress_toNat a, rfl⟩

end Sys2Proof.Machine
end

section
/-! SUPPORT. The queue of waiting commands under every command, and the step on its front. -/
namespace Sys2Proof.Machine

/-! ## The queue of waiting commands (logs 5 and 31)

An update of a block leaves `pending` by computation; the operations shared by the blocks leave it by `Keeps`, those of LDU by
`LoadsOnly`. -/

section
variable {s t u : State}

theorem ite_pending {p : Prop} [Decidable p] (h : t.pending = s.pending) (k : u.pending = s.pending) :
    (if p then t else u).pending = s.pending := by
  split
  · exact h
  · exact k

theorem foldl_pending {α : Type} {f : State → α → State} (hf : ∀ s a, (f s a).pending = s.pending) (l : List α) (s : State) :
    (l.foldl f s).pending = s.pending := by
  induction l generalizing s with
  | nil => rfl
  | cons a l ih => exact (ih (f s a)).trans (hf s a)

theorem LoadsOnly.pending (h : LoadsOnly s t) : t.pending = s.pending := by
  rw [h]
  rfl

theorem whileRunning_pending {f : State → State} (hf : (f s).pending = s.pending) : (whileRunning f s).pending = s.pending :=
  ite_pending hf rfl

theorem whileCounting_pending {f : State → State} (hf : (f s).pending = s.pending) : (whileCounting f s).pending = s.pending :=
  ite_pending hf rfl

/-- A command of CMU leaves the waiting commands when its block does. -/
theorem serve_pending {c : Cmd} {body : Mgmt → State → State × Answer} (hb : ∀ m, (body m s).1.pending = s.pending) :
    (whileRunning (serve c body) s).pending = s.pending := by
  refine whileRunning_pending ?_
  unfold serve
  split
  · rfl
  next m _ _ =>
    refine ite_pending ?_ rfl
    unfold runCommand
    split
    · rfl
    · exact hb m

end

section
variable (s : State)

/-! ### Frames of the ring -/

theorem enterGood_pending : (enterGood s).pending = s.pending := by
  cases hloss : s.rif.lossSinceGood with
  | false => rw [enterGood_quiet hloss, State.setRif_pending]
  | true =>
    rw [enterGood_afterLoss hloss]
    exact (takeRegain_keeps (s.setRif { s.rif with lossSinceGood := false })).pending

theorem receiveValid_pending (f : Sample) (rx : Rx) : (receiveValid f rx s).pending = s.pending := by
  by_cases hhand : (s.rif.takeValid f.number rx).recv = .hunt
  · rw [receiveValid_unhanded hhand, State.setRif_pending]
  · rw [receiveValid_handed hhand, (handValid_keeps ..).pending]
    exact ite_pending (enterGood_pending (s.setRif _)) rfl

theorem receiveSample_pending (rx : Rx) : (receiveSample rx s).pending = s.pending := by
  unfold receiveSample
  split
  · exact receiveValid_pending ..
  · exact ite_pending rfl (handHeld_keeps _ (s.setRif _)).pending

theorem missFrame_pending : (missFrame s).pending = s.pending := ite_pending rfl (handHeld_keeps _ (s.setRif _)).pending

theorem localFrame_pending : (localFrame s).pending = s.pending := ite_pending (takeAtRest_keeps (s.setDsy _)).pending rfl

theorem loseRing_pending : (loseRing s).pending = s.pending := by
  rw [loseRing_eq]
  exact (takeAtRest_keeps _).pending.trans (takeLost_keeps (lossSignalled s)).pending

theorem lossExpiry_pending : (lossExpiry s).pending = s.pending := ite_pending rfl (loseRing_pending s)

theorem receiveMgmt_pending (rx : Rx) : (receiveMgmt rx s).pending = s.pending := by
  unfold receiveMgmt
  split
  · exact ite_pending (ite_pending rfl rfl) rfl
  · rfl

theorem receiveTime_pending (rx : Rx) : (receiveTime rx s).pending = s.pending := by
  unfold receiveTime
  split
  · exact ite_pending (takeTime_keeps (passMessage rx s) _).pending rfl
  · rfl

theorem receiveRelease_pending (rx : Rx) : (receiveRelease rx s).pending = s.pending :=
  ite_pending (ite_pending (ite_pending rfl rfl) rfl) rfl

theorem receiveEmpty_pending (rx : Rx) : (receiveEmpty rx s).pending = s.pending := ite_pending rfl rfl

/-! ### Pins and timers -/

theorem ilkLineOpen_pending : (ilkLineOpen s).pending = s.pending :=
  ite_pending ((takeAtRest_keeps _).pending.trans (takeInterlock_keeps _).pending) rfl

theorem ilkQualified_pending : (ilkQualified s).pending = s.pending := ite_pending rfl rfl

theorem rdyDebounced_keeps (i : TowerIx) : Keeps s (rdyDebounced i s) := by
  have hsettled := setDsy_keeps s (s.dsy.rdySettled i)
  exact .ite (.ite (hsettled.trans (raise_keeps ..)) ((hsettled.trans (raise_keeps ..)).trans (takeCabinetLoss_keeps ..)))
    (.refl s)

theorem travelExpired_pending (c : ContactorIx) : (travelExpired c s).pending = s.pending := by
  unfold travelExpired
  split
  · rfl
  · exact ite_pending (takeStuck_keeps ((s.setContactor c _).raise ..) c).pending rfl

theorem settleExpired_pending : (settleExpired s).pending = s.pending := by
  unfold settleExpired
  split
  · exact (afterSettle_keeps ..).pending
  all_goals rfl

theorem gateExpired_pending : (gateExpired s).pending = s.pending := by
  unfold gateExpired
  split
  · exact (halt_keeps ..).pending
  all_goals rfl

theorem absenceExpiry_pending : (absenceExpiry s).pending = s.pending := ite_pending rfl rfl

theorem staleExpiry_pending : (staleExpiry s).pending = s.pending := by
  unfold staleExpiry
  split <;> rfl

/-! ### Monitor records -/

theorem noticeLimit_keeps (w : Nat → Word) (k : Slot) (t : TowerIx) (a b : Int) : Keeps s (noticeLimit w k t a b s) := by
  unfold noticeLimit
  split
  · exact .refl s
  · exact .ite (.refl s) ((setMon_keeps ..).trans (raise_keeps ..))

theorem trimTower_pending (w : Nat → Word) (k : Slot) (t : TowerIx) (r : Nat) (m : Int) :
    (trimTower w k t r m s).pending = s.pending :=
  ite_pending rfl (noticeLimit_keeps ..).pending

theorem evaluateTower_pending (w : Nat → Word) (k : Slot) (rec : MonRecord) (t : TowerIx) :
    (evaluateTower w k rec s t).pending = s.pending :=
  ite_pending ((trimTower_pending ..).trans (judgeTower_keeps ..).pending) rfl

theorem evaluate_pending (rec : MonRecord) : (evaluate rec s).pending = s.pending := by
  unfold evaluate
  split
  · rfl
  · exact ite_pending (foldl_pending (fun s t => evaluateTower_pending s _ _ rec t) allTowers s) rfl

theorem takeRecord_pending (rx : Rx) : (takeRecord rx s).pending = s.pending := by
  have taken : ∀ rec : MonRecord, (recordTaken rec s).pending = s.pending := fun _ => ite_pending rfl rfl
  unfold takeRecord
  split
  · rfl
  · exact ite_pending (taken _) ((evaluate_pending ..).trans (taken _))

/-! ### Checks and lapses -/

theorem lapse_pending (x : Target) : (lapse x s).pending = s.pending := by
  unfold lapse
  split
  · rfl
  · exact ite_pending rfl (LoadsOnly.abandon x s).pending

theorem onSlot_pending (x : Target) (f : Pst → Slot → Pst) : (onSlot x f s).pending = s.pending :=
  ((LoadsOnly.refl s).onSlot x f).pending

theorem makeLive_pending (x : Target) (v : Word) : (makeLive x v s).pending = s.pending :=
  ite_pending (onSlot_pending ..) (ite_pending (t := replaceContactors (regionWord s x) s)
    (replaceContactors_keeps ..).pending (replaceSchedule_keeps ..).pending)

theorem completeCheck_pending (x : Target) : (completeCheck x s).pending = s.pending := by
  unfold completeCheck
  split
  · rfl
  · split
    · rfl
    · exact ite_pending (t := (makeLive x _ s).setClaim x none) (makeLive_pending ..) (onSlot_pending ..)

/-! ### Commands -/

theorem arm_pending (a : Armed) : (arm a s).pending = s.pending := by
  have hwithdrawn := (withdraw_keeps s .replaced).pending
  unfold arm
  dsimp only
  split <;> exact hwithdrawn

theorem switchBody_pending (m : Mgmt) : (switchBody m s).1.pending = s.pending := by
  unfold switchBody
  dsimp only
  split
  · rfl
  · split
    · rfl
    · split
      · rfl
      · exact arm_pending ..

theorem withdrawBody_pending (m : Mgmt) : (withdrawBody m s).1.pending = s.pending := by
  unfold withdrawBody
  split <;> rfl

theorem goBody_pending (m : Mgmt) : (goBody m s).1.pending = s.pending := by
  unfold goBody
  split
  · split <;> rfl
  all_goals rfl

theorem continueBody_pending (m : Mgmt) : (continueBody m s).1.pending = s.pending := by
  unfold continueBody
  split
  · rfl
  · split_ifs
    · rfl
    · rfl
    · exact (enterSwitching_keeps ..).pending.trans (withdraw_keeps ..).pending

theorem retreatBody_pending (m : Mgmt) : (retreatBody m s).1.pending = s.pending := by
  unfold retreatBody
  split
  · rfl
  · split
    · rfl
    · split
      · rfl
      · split
        · rfl
        · exact (launch_keeps ..).pending.trans (withdraw_keeps ..).pending

theorem muteBody_pending (m : Mgmt) : (muteBody m s).1.pending = s.pending :=
  (muteArray_keeps ..).pending.trans (withdraw_keeps ..).pending

theorem moveBody_pending (m : Mgmt) : (moveBody m s).1.pending = s.pending := by
  unfold moveBody
  split
  · exact (moveRequest_keeps ..).pending
  · rfl

theorem trimClearBody_pending (m : Mgmt) : (trimClearBody m s).1.pending = s.pending := ite_pending rfl rfl

theorem scheduleHoldBody_pending (m : Mgmt) : (scheduleHoldBody m s).1.pending = s.pending := by
  unfold scheduleHoldBody
  split
  · exact (holdOn_keeps _).pending
  · exact (holdOff_keeps ..).pending

theorem serveUnknown_pending : (serveUnknown s).pending = s.pending := by
  unfold serveUnknown
  split
  · rfl
  · exact ite_pending rfl rfl

end

/-- Settles O2: each arm of `exec` answers a next state, through its gate or through CMU, and the operation behind it leaves the
waiting commands. -/
theorem everyCommandAnswersANextState : Obligations.EveryCommandAnswersANextState := by
  intro i s
  cases i with
  | powerOnReset | resetAsserted | refclkStopped | refclkReturned | interlockLineClosed | rdyLineChange | auxInputChange =>
    exact ⟨_, rfl, rfl⟩
  | sampleFrame rx => exact ⟨_, rfl, whileRunning_pending (receiveSample_pending s rx)⟩
  | missedFrame => exact ⟨_, rfl, whileCounting_pending (missFrame_pending s)⟩
  | localPaceFrame => exact ⟨_, rfl, whileCounting_pending (localFrame_pending s)⟩
  | lossTimerExpiry => exact ⟨_, rfl, whileCounting_pending (lossExpiry_pending s)⟩
  | mgmtFrame rx => exact ⟨_, rfl, whileRunning_pending (receiveMgmt_pending s rx)⟩
  | timeFrame rx => exact ⟨_, rfl, whileRunning_pending (receiveTime_pending s rx)⟩
  | releaseFrame rx => exact ⟨_, rfl, whileRunning_pending (receiveRelease_pending s rx)⟩
  | emptyFrame rx => exact ⟨_, rfl, whileRunning_pending (receiveEmpty_pending s rx)⟩
  | status | read | ackFault | reporting | clearOverflow | restart => exact ⟨_, rfl, serve_pending fun _ => rfl⟩
  | switch => exact ⟨_, rfl, serve_pending (switchBody_pending s)⟩
  | withdraw => exact ⟨_, rfl, serve_pending (withdrawBody_pending s)⟩
  | go => exact ⟨_, rfl, serve_pending (goBody_pending s)⟩
  | continueTx => exact ⟨_, rfl, serve_pending (continueBody_pending s)⟩
  | retreat => exact ⟨_, rfl, serve_pending (retreatBody_pending s)⟩
  | mute => exact ⟨_, rfl, serve_pending (muteBody_pending s)⟩
  | move => exact ⟨_, rfl, serve_pending (moveBody_pending s)⟩
  | trimClear => exact ⟨_, rfl, serve_pending (trimClearBody_pending s)⟩
  | scheduleHold => exact ⟨_, rfl, serve_pending (scheduleHoldBody_pending s)⟩
  | claim => exact ⟨_, rfl, serve_pending fun m => (LoadsOnly.claimBody m s).pending⟩
  | load => exact ⟨_, rfl, serve_pending fun m => (LoadsOnly.loadBody m s).pending⟩
  | commit => exact ⟨_, rfl, serve_pending fun m => (LoadsOnly.commitBody m s).pending⟩
  | finish => exact ⟨_, rfl, serve_pending fun m => (LoadsOnly.finishBody m s).pending⟩
  | unclaim => exact ⟨_, rfl, serve_pending fun m => (LoadsOnly.unclaimBody m s).pending⟩
  | interlockOpening => exact ⟨_, rfl, ilkLineOpen_pending s⟩
  | interlockQualified => exact ⟨_, rfl, whileCounting_pending (ilkQualified_pending s)⟩
  | cabinetDebounceExpiry t => exact ⟨_, rfl, whileCounting_pending (rdyDebounced_keeps s t).pending⟩
  | auxDebounceExpiry c x => exact ⟨_, rfl, whileCounting_pending auxDebounced_keeps.pending⟩
  | travelLimitExpiry c => exact ⟨_, rfl, whileCounting_pending (travelExpired_pending s c)⟩
  | settleTimerExpiry => exact ⟨_, rfl, whileCounting_pending (settleExpired_pending s)⟩
  | gateTimerExpiry => exact ⟨_, rfl, whileCounting_pending (gateExpired_pending s)⟩
  | checkCompletion x => exact ⟨_, rfl, whileRunning_pending (completeCheck_pending s x)⟩
  | claimLapse x => exact ⟨_, rfl, whileCounting_pending (lapse_pending s x)⟩
  | monitorRecord rx => exact ⟨_, rfl, whileRunning_pending (takeRecord_pending s rx)⟩
  | absenceTimerExpiry => exact ⟨_, rfl, whileCounting_pending (absenceExpiry_pending s)⟩
  | holdOffExpiry => exact ⟨_, rfl, whileCounting_pending rfl⟩
  | staleTimerExpiry => exact ⟨_, rfl, whileCounting_pending (staleExpiry_pending s)⟩
  | unknownCommand => exact ⟨_, rfl, whileRunning_pending (serveUnknown_pending s)⟩

/-! ## The step on a waiting command (log 1) -/

/-- Settles O1, by the branch of `step` for a queue that is not empty; `step_idle` is the other branch. -/
theorem stepRunsTheFrontCommand : Obligations.StepRunsTheFrontCommand := by
  intro c rest s hpending
  unfold step
  rw [hpending]

end Sys2Proof.Machine
end
